-- ==== Sys2Proof/Word.lean ====
section
/-! DEFINITION. The widths of UC-CORE: bytes of buffer memory, 32-bit registers and words, 64-bit blocks and lanes,
the 4-bit variant selector (00_scope.md R8 and R9, 30_encoding.md R80). -/

namespace Sys2Proof

/-- A byte of buffer memory (R11, R34). -/
abbrev Byte := BitVec 8

/-- A 32-bit register, command word or algorithm word (R8, R21, R80). -/
abbrev Word := BitVec 32

/-- A 64-bit value: a PRESENT block (R150), a block counter (R25), a Keccak lane (R260). -/
abbrev DWord := BitVec 64

/-- The variant selector `PARAM`, bits 11:8 of a command word (R80, R91). -/
abbrev Param := BitVec 4

end Sys2Proof
end

