-- ==== Sys2Proof/Syntax.lean ====
section
/-! DEFINITION. The commands of UC-CORE: one constructor for each of the 29 rows of spec/opcode_table.json
(30_encoding.md R82). A command's one operand is `PARAM` (R80, R91): all other operands are registers it names by
its operation alone (R88). -/

namespace Sys2Proof

/-- The 29 commands, in the order of R82; the argument is `PARAM` as it stands in the word. A `PARAM` outside the command's
legal set is no illegal word (R85): it is a command that ends with `UnsupportedParameter`. -/
inductive Instr where
  | nop (p : Param)
  | clrstat (p : Param)
  | gfMul (p : Param)
  | aes128Keyexp (p : Param)
  | aesRnd (p : Param)
  | aesRndlast (p : Param)
  | aes128Enc (p : Param)
  | presentKeysched (p : Param)
  | presentEnc (p : Param)
  | presentDec (p : Param)
  | chachaQr (p : Param)
  | chachaCore (p : Param)
  | chacha20Block (p : Param)
  | chacha20Xor (p : Param)
  | salsaQr (p : Param)
  | salsaCore (p : Param)
  | salsa20Block (p : Param)
  | salsa20Xor (p : Param)
  | rc4Ksa (p : Param)
  | rc4Xor (p : Param)
  | triviumXor (p : Param)
  | md5Compress (p : Param)
  | md5Hash (p : Param)
  | sha1Compress (p : Param)
  | sha1Hash (p : Param)
  | sha256Compress (p : Param)
  | sha256Hash (p : Param)
  | keccakF1600 (p : Param)
  | sha3Hash (p : Param)
  deriving DecidableEq, Repr

/-- The `PARAM` field of a command. -/
def Instr.param : Instr → Param
  | .nop p | .clrstat p | .gfMul p
  | .aes128Keyexp p | .aesRnd p | .aesRndlast p | .aes128Enc p
  | .presentKeysched p | .presentEnc p | .presentDec p
  | .chachaQr p | .chachaCore p | .chacha20Block p | .chacha20Xor p
  | .salsaQr p | .salsaCore p | .salsa20Block p | .salsa20Xor p
  | .rc4Ksa p | .rc4Xor p | .triviumXor p
  | .md5Compress p | .md5Hash p | .sha1Compress p | .sha1Hash p | .sha256Compress p | .sha256Hash p
  | .keccakF1600 p | .sha3Hash p => p

end Sys2Proof
end

