-- ==== Sys2Proof/WellFormed.lean ====
section
/-! DEFINITION. Which commands are well formed: `PARAM` in the command's legal set (30_encoding.md R83; `param_legal` of
spec/opcode_table.json). A command that is not well formed still decodes and still runs: it ends with
`UnsupportedParameter` (R85). -/

namespace Sys2Proof

/-- `legal_PARAM` of R83: 0 and 1 for the PRESENT commands, 0 to 2 for the ChaCha and Salsa commands that take a round count,
0 for every other command. -/
def Instr.legalParams : Instr → List Param
  | .presentKeysched _ | .presentEnc _ | .presentDec _ => [0, 1]
  | .chachaCore _ | .chacha20Block _ | .chacha20Xor _
  | .salsaCore _ | .salsa20Block _ | .salsa20Xor _ => [0, 1, 2]
  | .nop _ | .clrstat _ | .gfMul _
  | .aes128Keyexp _ | .aesRnd _ | .aesRndlast _ | .aes128Enc _
  | .chachaQr _ | .salsaQr _
  | .rc4Ksa _ | .rc4Xor _ | .triviumXor _
  | .md5Compress _ | .md5Hash _ | .sha1Compress _ | .sha1Hash _ | .sha256Compress _ | .sha256Hash _
  | .keccakF1600 _ | .sha3Hash _ => [0]

/-- The one check of well-formedness: `PARAM` is legal for the command. -/
def Instr.wellFormed (i : Instr) : Bool := i.legalParams.contains i.param

end Sys2Proof
end

