-- ==== Sys2Proof/Decode.lean ====
section
/-! DEFINITION. Decoding a command word, and the encoder (30_encoding.md R80 to R83, R85). -/

namespace Sys2Proof

/-- Why a word is illegal (R85): a non-zero bit in 31:12, or an `OP` that the opcode map does not assign. -/
inductive DecodeReject where
  | reservedBitsNotZero
  | unassignedOp
  deriving DecidableEq, Repr

/-- The opcode map of R82, read from operation code to command. -/
def opcodeMap : List (BitVec 8 × (Param → Instr)) :=
  [ (0x00, .nop), (0x01, .clrstat),
    (0x08, .gfMul),
    (0x10, .aes128Keyexp), (0x11, .aesRnd), (0x12, .aesRndlast), (0x13, .aes128Enc),
    (0x20, .presentKeysched), (0x21, .presentEnc), (0x22, .presentDec) ] ++
  [ (0x30, .chachaQr), (0x31, .chachaCore), (0x32, .chacha20Block), (0x33, .chacha20Xor),
    (0x38, .salsaQr), (0x39, .salsaCore), (0x3A, .salsa20Block), (0x3B, .salsa20Xor) ] ++
  [ (0x40, .rc4Ksa), (0x41, .rc4Xor),
    (0x48, .triviumXor),
    (0x50, .md5Compress), (0x51, .md5Hash),
    (0x54, .sha1Compress), (0x55, .sha1Hash),
    (0x58, .sha256Compress), (0x59, .sha256Hash),
    (0x60, .keccakF1600), (0x61, .sha3Hash) ]

/-- The fields of format `C` (R80). -/
def wordOp (w : Word) : BitVec 8 := w.extractLsb' 0 8
def wordParam (w : Word) : Param := w.extractLsb' 8 4
def wordZero (w : Word) : BitVec 20 := w.extractLsb' 12 20

/-- Decoding, total on all 2^32 words (R80, R85). The bits 31:12 are looked at first; either reject is `IllegalCommand`. -/
def decode (w : Word) : Except DecodeReject Instr :=
  if wordZero w ≠ 0 then .error .reservedBitsNotZero
  else match opcodeMap.lookup (wordOp w) with
    | some mk => .ok (mk (wordParam w))
    | none => .error .unassignedOp

/-- `OP` of a command: the opcode map of R82, read from command to operation code. -/
def opcode : Instr → BitVec 8
  | .nop _ => 0x00
  | .clrstat _ => 0x01
  | .gfMul _ => 0x08
  | .aes128Keyexp _ => 0x10
  | .aesRnd _ => 0x11
  | .aesRndlast _ => 0x12
  | .aes128Enc _ => 0x13
  | .presentKeysched _ => 0x20
  | .presentEnc _ => 0x21
  | .presentDec _ => 0x22
  | .chachaQr _ => 0x30
  | .chachaCore _ => 0x31
  | .chacha20Block _ => 0x32
  | .chacha20Xor _ => 0x33
  | .salsaQr _ => 0x38
  | .salsaCore _ => 0x39
  | .salsa20Block _ => 0x3A
  | .salsa20Xor _ => 0x3B
  | .rc4Ksa _ => 0x40
  | .rc4Xor _ => 0x41
  | .triviumXor _ => 0x48
  | .md5Compress _ => 0x50
  | .md5Hash _ => 0x51
  | .sha1Compress _ => 0x54
  | .sha1Hash _ => 0x55
  | .sha256Compress _ => 0x58
  | .sha256Hash _ => 0x59
  | .keccakF1600 _ => 0x60
  | .sha3Hash _ => 0x61

/-- The command word `OP | (PARAM << 8)` (R80, R89). -/
def encode (i : Instr) : Word := 0#20 ++ (i.param ++ opcode i)

/-- The command the decoder reads from the bits `w` of a table row of `nbits` bits. The command word has no byte order (R53):
bit 0 of the row is bit 0 of the value of the `CMD` write, and the bits above `nbits` are 0. -/
def decodeTableWord (nbits w : Nat) : Option Instr :=
  if w % 2 ^ nbits < 2 ^ 32 then (decode (BitVec.ofNat 32 (w % 2 ^ nbits))).toOption else none

end Sys2Proof
end

