-- ==== Sys2Proof/Machine/Bytes.lean ====
section
/-! DEFINITION. Byte sequences and the words made of them (00_scope.md R9 to R11), bit strings, and XOR of sequences. -/

namespace Sys2Proof.Machine

/-- The integer of a byte sequence, first byte least significant (R11: `LE32`, `LE64`, at any length). -/
def leNat : List Byte → Nat
  | [] => 0
  | b :: bs => b.toNat + 256 * leNat bs

/-- The integer of a byte sequence, first byte most significant (R11: `BE32`, `BE64`, at any length). -/
def beNat (b : List Byte) : Nat := leNat b.reverse

/-- `LE32`, `BE32`, `BE64`, `LE64` of a sequence of 4 or 8 bytes (R11). -/
def le32 (b : List Byte) : Word := BitVec.ofNat 32 (leNat b)
def be32 (b : List Byte) : Word := BitVec.ofNat 32 (beNat b)
def le64 (b : List Byte) : DWord := BitVec.ofNat 64 (leNat b)
def be64 (b : List Byte) : DWord := BitVec.ofNat 64 (beNat b)

/-- Byte `i` of a value, byte 0 the least significant. -/
def byteOf {w : Nat} (v : BitVec w) (i : Nat) : Byte := v.extractLsb' (8 * i) 8

/-- `ToLE32`, `ToBE32`, `ToLE64`, `ToBE64` (R11). -/
def toLE32 (v : Word) : List Byte := [byteOf v 0, byteOf v 1, byteOf v 2, byteOf v 3]
def toBE32 (v : Word) : List Byte := [byteOf v 3, byteOf v 2, byteOf v 1, byteOf v 0]
def toLE64 (v : DWord) : List Byte :=
  [byteOf v 0, byteOf v 1, byteOf v 2, byteOf v 3, byteOf v 4, byteOf v 5, byteOf v 6, byteOf v 7]
def toBE64 (v : DWord) : List Byte := (toLE64 v).reverse

/-- `b[i .. i+n-1]` (R11). -/
def slice (b : List Byte) (i n : Nat) : List Byte := (b.drop i).take n

/-- The first `n` words of a sequence, word `k` from bytes `4k .. 4k+3`, little-endian or big-endian. -/
def wordsLE (n : Nat) (b : List Byte) : List Word := (List.range n).map fun k => le32 (slice b (4 * k) 4)
def wordsBE (n : Nat) (b : List Byte) : List Word := (List.range n).map fun k => be32 (slice b (4 * k) 4)

/-- The bytes of a list of words, each little-endian or each big-endian. -/
def bytesLE (ws : List Word) : List Byte := ws.flatMap toLE32
def bytesBE (ws : List Word) : List Byte := ws.flatMap toBE32

/-- Bytewise XOR of a sequence with a keystream; the length is the shorter one's. -/
def xorBytes (a b : List Byte) : List Byte := List.zipWith (· ^^^ ·) a b

/-- The `n`-bit value whose bit `i` is `f i`. -/
def ofBits : (n : Nat) → (Nat → Bool) → BitVec n
  | 0, _ => 0#0
  | n + 1, f => BitVec.cons (f n) (ofBits n f)

end Sys2Proof.Machine
end

