-- ==== Sys2Proof/Config.lean ====
section
/-! DEFINITION. What one build of the block fixes and the spec leaves open: `MEM_SIZE` of the reset state and what a
byte of `MEM` that nothing has written reads as (00_scope.md R8, decisions D4 and D5). No free value is needed: every
other result is stated by a rule. -/

namespace Sys2Proof.Config

/-- `MEM_SIZE` of `State.reset`. DESIGN CHOICE (log entry 2): R8 leaves it OPEN (`1 <= MEM_SIZE <= 2^32`). The value is the
one of the spec's own vectors. The size stands in the state's field `memSize`, so a statement about every state holds for
every size. -/
def resetMemSize : Nat := 0x1000

/-- The largest legal `MEM_SIZE` (R8). -/
def maxMemSize : Nat := 2 ^ 32

/-- What an address with no entry in the memory list reads as. DESIGN CHOICE (log entry 1): `MEM_INIT` is OPEN (R8, R38). -/
def unlistedByte : Byte := 0#8

end Sys2Proof.Config
end

