-- ==== Sys2Proof/Machine/State.lean ====
section
/-! DEFINITION. The state of UC-CORE (10_state.md R20 to R25, R34, R38), what the host can do to it (20_memory.md R51,
70_reset_and_hazards.md R340), and the reasons a step stops. -/

namespace Sys2Proof.Machine

/-- Buffer memory `MEM` (R34) as a list of (address, byte) pairs in one canonical form: addresses strictly rising, no entry
equal to what an unlisted address reads as. -/
abbrev Memory := List Host.Cell

/-- The canonical form of a memory list. -/
abbrev Memory.wf (m : Memory) : Prop :=
  m.Pairwise (fun c d => c.1 < d.1) ∧ ∀ c ∈ m, c.2 ≠ Config.unlistedByte

/-- The ten registers of the map (R21). `cmd` is a port without storage. -/
inductive Reg where
  | cmd | status | src | dst | len | keyp | keylen | ivp | ctrlo | ctrhi
  deriving DecidableEq, Repr

/-- The five errors of R300. -/
inductive ErrorCode where
  | invalidKeyLength
  | invalidInputLength
  | unsupportedParameter
  | illegalCommand
  | accessFault
  deriving DecidableEq, Repr

/-- What the outside world does to the block, one event a step: the four host transactions of R51 (register accesses are whole
32-bit words), and the reset action of R340, which brings the content `MEM` has after it (`MEM_INIT`, R8, R38). -/
inductive HostEvent where
  | regWrite (off : Nat) (v : Word)
  | regRead (off : Nat)
  | memWrite (addr : Nat) (v : List Byte)
  | memRead (addr n : Nat)
  | reset (memInit : List Host.Cell)
  deriving DecidableEq, Repr

/-- What the last host transaction returned (R51): nothing for a write, a word or bytes for a read. -/
inductive PortOut where
  | nothing
  | word (v : Word)
  | bytes (v : List Byte)
  deriving DecidableEq, Repr

/-- The machine. The first nine fields and `mem` are the architectural state of R20. The last three are the model's own (log
entries 2, 3, 4): the parameter `MEM_SIZE`, the events the outside world has still to perform, the next one first, and
what the last transaction returned. -/
structure State where
  status : Word
  src : Word
  dst : Word
  len : Word
  keyp : Word
  keylen : Word
  ivp : Word
  ctrlo : Word
  ctrhi : Word
  mem : Memory
  memSize : Nat
  host : List HostEvent
  port : PortOut
  deriving DecidableEq, Repr

/-- There is no fault: every command runs to completion and records its errors in `STATUS` (R84, R308), and a transaction
outside the interface is refused, not faulted (R51). -/
inductive Fault where
  deriving DecidableEq, Repr

/-- Why a step is refused. -/
inductive Refusal where
  /-- Raised by an arm of `exec` that has no meaning yet. Safe. No arm raises it. -/
  | notModelled (mnemonic : String)
  /-- Raised by a register access at an offset that is not in the map: 0x28 or above, or no multiple of 4 (R51, U3: "no such
  transaction exists in the model"). Safe. -/
  | noSuchRegister (off : Nat)
  /-- Raised by a host memory access that is not wholly inside `MEM` (R51, U4: "no such transaction exists in the model"). Safe. -/
  | hostRangeOutsideMem (addr n : Nat)
  deriving DecidableEq, Repr

/-- What a step or a command answers. -/
abbrev Outcome := Host.Outcome State Fault Refusal

/-- The state after reset with a given `MEM_SIZE`, content of `MEM` and events to come (R38, R341). -/
def State.launch (memSize : Nat) (mem : Memory) (host : List HostEvent) : State where
  status := 0x00000000
  src := 0x00000000
  dst := 0x00000000
  len := 0x00000000
  keyp := 0x00000000
  keylen := 0x00000000
  ivp := 0x00000000
  ctrlo := 0x00000000
  ctrhi := 0x00000000
  mem := mem
  memSize := memSize
  host := host
  port := .nothing

/-- The machine right after reset (R38, R341): every register 0, memory with nothing listed, no event waiting. -/
def State.reset : State := State.launch Config.resetMemSize [] []

end Sys2Proof.Machine
end

