-- ==== Sys2Proof/Machine/Flags.lean ====
section
/-! DEFINITION. The fields of `STATUS` and the two ways the engine computes it (10_state.md R23, 30_encoding.md R84,
60_exceptions.md R300, R304). There is no other flag (R26). -/

namespace Sys2Proof.Machine

/-- The number of an error in `STATUS.ERR` (R300). -/
def ErrorCode.code : ErrorCode → BitVec 4
  | .invalidKeyLength => 1
  | .invalidInputLength => 2
  | .unsupportedParameter => 3
  | .illegalCommand => 4
  | .accessFault => 5

/-- `STATUS.DONE`, bit 0; `STATUS.ERR`, bits 7:4; `STATUS.STICKY`, bit 8 (R23). -/
def statusDone (st : Word) : Bool := st.getLsbD 0
def statusErr (st : Word) : BitVec 4 := st.extractLsb' 4 4
def statusSticky (st : Word) : Bool := st.getLsbD 8

/-- `STATUS` after a successful command: `DONE` = 1, `ERR` = 0, `STICKY` kept (R84). -/
def statusOnSuccess (st : Word) : Word := (st &&& 0x00000100) ||| 0x00000001

/-- `STATUS` after an error: `DONE` = 1, `ERR` = the code, `STICKY` = 1 (R84, R304). -/
def statusOnError (e : ErrorCode) : Word := 0x00000101 ||| (e.code.setWidth 32 <<< 4)

end Sys2Proof.Machine
end

