-- ==== Sys2Proof/Machine/Ops.lean ====
section
/-! DEFINITION. The named operations over memory and registers, and error entry (20_memory.md R51, R59 to R63, R69;
10_state.md R21, R22, R25; 60_exceptions.md R304). -/

namespace Sys2Proof.Machine

/-- One byte of `MEM`. An address without an entry reads as `Config.unlistedByte` (log entry 1). -/
def Memory.read : Memory → Nat → Byte
  | [], _ => Config.unlistedByte
  | (k, v) :: m, a => if k = a then v else Memory.read m a

/-- The list without the entries of an address. -/
def Memory.erase (m : Memory) (a : Nat) : Memory := m.filter fun c => c.1 != a

/-- An entry put in before the first entry of a higher address. -/
def Memory.insert : Memory → Nat → Byte → Memory
  | [], a, b => [(a, b)]
  | (k, v) :: m, a, b => if a < k then (a, b) :: (k, v) :: m else (k, v) :: Memory.insert m a b

/-- Storing one byte. The value an unlisted address reads as is stored by taking the entry away. -/
def Memory.write (m : Memory) (a : Nat) (b : Byte) : Memory :=
  if b = Config.unlistedByte then m.erase a else (m.erase a).insert a b

/-- `MemRead(addr, n)` (R13, R69): byte `i` is the one at `addr + i`. -/
def Memory.readBytes (m : Memory) (a n : Nat) : List Byte := (List.range n).map fun i => m.read (a + i)

/-- `MemWrite(addr, n, v)` with `n = len(v)` (R13, R69): byte `i` goes to `addr + i`. -/
def Memory.writeBytes : Memory → Nat → List Byte → Memory
  | m, _, [] => m
  | m, a, b :: bs => Memory.writeBytes (m.write a b) (a + 1) bs

/-- The memory that holds some given cells below `size` and nothing else, in canonical form: the content `MEM_INIT` that a
reset brings (R8, R38). -/
def Memory.ofCells (size : Nat) (cells : List Host.Cell) : Memory :=
  cells.foldl (fun m c => if c.1 < size then m.write c.1 c.2 else m) []

/-- A range `(p, n)` of `n` bytes at address `p` (R62, R88). -/
structure Range where
  base : Nat
  len : Nat
  deriving DecidableEq, Repr

/-- The range check of R62, in unbounded integers: an empty range is always inside. -/
def Range.inside (r : Range) (memSize : Nat) : Bool := r.len == 0 || decide (r.base + r.len ≤ memSize)

/-- The register at an offset of the register map (R21); no register at 0x28 and above or at an offset that is no multiple of 4
(R51). -/
def regAt : Nat → Option Reg
  | 0x00 => some .cmd
  | 0x04 => some .status
  | 0x08 => some .src
  | 0x0C => some .dst
  | 0x10 => some .len
  | 0x14 => some .keyp
  | 0x18 => some .keylen
  | 0x1C => some .ivp
  | 0x20 => some .ctrlo
  | 0x24 => some .ctrhi
  | _ => none

/-- What a read of a register returns (R21, R51): `CMD` has no storage and reads 0. -/
def State.readReg (s : State) : Reg → Word
  | .cmd => 0
  | .status => s.status
  | .src => s.src
  | .dst => s.dst
  | .len => s.len
  | .keyp => s.keyp
  | .keylen => s.keylen
  | .ivp => s.ivp
  | .ctrlo => s.ctrlo
  | .ctrhi => s.ctrhi

/-- What a host write stores (R22, R23, R51): the whole register, and nothing in `STATUS` or in `CMD`, which has no storage. -/
def State.writeReg (s : State) (r : Reg) (v : Word) : State :=
  match r with
  | .cmd => s
  | .status => s
  | .src => { s with src := v }
  | .dst => { s with dst := v }
  | .len => { s with len := v }
  | .keyp => { s with keyp := v }
  | .keylen => { s with keylen := v }
  | .ivp => { s with ivp := v }
  | .ctrlo => { s with ctrlo := v }
  | .ctrhi => { s with ctrhi := v }

/-- The engine's write of `STATUS`, and the replacement of `MEM`. -/
def State.setStatus (s : State) (v : Word) : State := { s with status := v }
def State.setMem (s : State) (m : Memory) : State := { s with mem := m }

/-- What a host transaction returned, and the events still to come. -/
def State.setPort (s : State) (p : PortOut) : State := { s with port := p }
def State.setHost (s : State) (h : List HostEvent) : State := { s with host := h }

/-- The 64-bit block counter operand `CTR = x[CTRHI] * 2^32 + x[CTRLO]` (R25). -/
def State.ctr (s : State) : DWord := s.ctrhi ++ s.ctrlo

/-- Error entry, the one shared operation by which every command and every illegal word takes an error (R84, R304): `STATUS` is
written and nothing else changes. There is no saved address, no vector and no mode (R304), and no return (R306): the next
command simply runs. What clears the record is `CLRSTAT` (`State.clearStatus`) or reset. -/
def State.raise (s : State) (e : ErrorCode) : State := s.setStatus (statusOnError e)

/-- `STATUS` as every successful command but `CLRSTAT` leaves it (R84). -/
def State.succeed (s : State) : State := s.setStatus (statusOnSuccess s.status)

/-- `STATUS` as `CLRSTAT` leaves it (R281). -/
def State.clearStatus (s : State) : State := s.setStatus 0

end Sys2Proof.Machine
end

