-- ==== Sys2Proof/Machine/Operands.lean ====
section
/-! DEFINITION. Where a command's operands are and what it requires of them: the operand table of 30_encoding.md R88, one
definition for each row, and the checks of R84 in their order (60_exceptions.md R305). -/

namespace Sys2Proof.Machine

/-- What a row of R88 says of one command in one state: whether `PARAM`, `KEYLEN` and `LEN` are legal (true where the command
does not read the register), the ranges it reads and the one it writes. -/
structure Operands where
  legalParam : Bool
  legalKeyLen : Bool := true
  legalLen : Bool := true
  key : Option Range := none
  iv : Option Range := none
  src : Option Range := none
  dst : Option Range := none
  deriving DecidableEq, Repr

/-- The bytes a command has read before it computes (R60). -/
structure Inputs where
  key : List Byte
  iv : List Byte
  src : List Byte
  deriving DecidableEq, Repr

/-- `reads(OP)` then `writes(OP)` (R84, R88). -/
def Operands.ranges (o : Operands) : List Range :=
  o.key.toList ++ o.iv.toList ++ o.src.toList ++ o.dst.toList

/-- The checks of `Issue` that follow decoding, in the order of R84 and R305: the first that fails decides the error. -/
def Operands.firstError (o : Operands) (memSize : Nat) : Option ErrorCode :=
  if !o.legalParam then some .unsupportedParameter
  else if !o.legalKeyLen then some .invalidKeyLength
  else if !o.legalLen then some .invalidInputLength
  else if !(o.ranges.all fun r => r.inside memSize) then some .accessFault
  else none

/-- `MemRead` of a range, empty where the command has none. -/
def Memory.readRange (m : Memory) : Option Range → List Byte
  | none => []
  | some r => m.readBytes r.base r.len

/-- `MemWrite` of a range: the engine's output has the length of the range (R88). -/
def Memory.writeRange (m : Memory) (r : Option Range) (v : List Byte) : Memory :=
  match r with
  | none => m
  | some r => m.writeBytes r.base v

/-- All of a command's reads (R60: no input byte is read after any output byte is written). -/
def Operands.inputs (o : Operands) (m : Memory) : Inputs where
  key := m.readRange o.key
  iv := m.readRange o.iv
  src := m.readRange o.src

/-- The range of `n` bytes at the address a pointer register holds (R69: no alignment, no extension, no side effect). -/
def rangeAt (p : Word) (n : Nat) : Option Range := some { base := p.toNat, len := n }

/-- The legal sets of `PARAM` (R83). -/
def paramOnly (p : Param) : Bool := p == 0
def paramPresent (p : Param) : Bool := p == 0 || p == 1
def paramRounds (p : Param) : Bool := p == 0 || p == 1 || p == 2

/-- `KEYLEN` of the PRESENT variants, in bytes (R83, R88): 10 with `PARAM` 0, 16 with `PARAM` 1. -/
def presentKeyLen (p : Param) : Nat := if p == 0 then 10 else 16

/-- `KEYLEN` of ChaCha and Salsa: 16 or 32 (R88). `KEYLEN` of RC4: 1 to 256 (R88, R201). -/
def streamKeyLen (n : Word) : Bool := n.toNat == 16 || n.toNat == 32
def rc4KeyLen (n : Word) : Bool := decide (1 ≤ n.toNat) && decide (n.toNat ≤ 256)

def operandsNop (p : Param) (_s : State) : Operands := { legalParam := paramOnly p }

def operandsClrstat (p : Param) (_s : State) : Operands := { legalParam := paramOnly p }

def operandsGfMul (p : Param) (s : State) : Operands :=
  { legalParam := paramOnly p, legalLen := s.len.toNat == 2,
    src := rangeAt s.src 2, dst := rangeAt s.dst 1 }

def operandsAes128Keyexp (p : Param) (s : State) : Operands :=
  { legalParam := paramOnly p, legalKeyLen := s.keylen.toNat == 16,
    key := rangeAt s.keyp 16, dst := rangeAt s.dst 176 }

/-- The row shared by `AES.RND`, `AES.RNDLAST` and `AES128.ENC`. -/
def operandsAesBlock (p : Param) (s : State) : Operands :=
  { legalParam := paramOnly p, legalKeyLen := s.keylen.toNat == 16, legalLen := s.len.toNat == 16,
    key := rangeAt s.keyp 16, src := rangeAt s.src 16, dst := rangeAt s.dst 16 }

def operandsPresentKeysched (p : Param) (s : State) : Operands :=
  { legalParam := paramPresent p, legalKeyLen := s.keylen.toNat == presentKeyLen p,
    key := rangeAt s.keyp s.keylen.toNat, dst := rangeAt s.dst 256 }

/-- The row shared by `PRESENT.ENC` and `PRESENT.DEC`. -/
def operandsPresentBlock (p : Param) (s : State) : Operands :=
  { legalParam := paramPresent p, legalKeyLen := s.keylen.toNat == presentKeyLen p, legalLen := s.len.toNat == 8,
    key := rangeAt s.keyp s.keylen.toNat, src := rangeAt s.src 8, dst := rangeAt s.dst 8 }

/-- The row shared by `CHACHA.QR` and `SALSA.QR`. -/
def operandsQr (p : Param) (s : State) : Operands :=
  { legalParam := paramOnly p, legalLen := s.len.toNat == 16,
    src := rangeAt s.src 16, dst := rangeAt s.dst 16 }

/-- The row shared by `CHACHA.CORE` and `SALSA.CORE`. -/
def operandsCore (p : Param) (s : State) : Operands :=
  { legalParam := paramRounds p, legalLen := s.len.toNat == 64,
    src := rangeAt s.src 64, dst := rangeAt s.dst 64 }

/-- The row shared by `CHACHA20.BLOCK` and `SALSA20.BLOCK`. -/
def operandsBlock (p : Param) (s : State) : Operands :=
  { legalParam := paramRounds p, legalKeyLen := streamKeyLen s.keylen,
    key := rangeAt s.keyp s.keylen.toNat, iv := rangeAt s.ivp 8, dst := rangeAt s.dst 64 }

/-- The row shared by `CHACHA20.XOR` and `SALSA20.XOR`. -/
def operandsStreamXor (p : Param) (s : State) : Operands :=
  { legalParam := paramRounds p, legalKeyLen := streamKeyLen s.keylen,
    key := rangeAt s.keyp s.keylen.toNat, iv := rangeAt s.ivp 8,
    src := rangeAt s.src s.len.toNat, dst := rangeAt s.dst s.len.toNat }

def operandsRc4Ksa (p : Param) (s : State) : Operands :=
  { legalParam := paramOnly p, legalKeyLen := rc4KeyLen s.keylen,
    key := rangeAt s.keyp s.keylen.toNat, dst := rangeAt s.dst 256 }

def operandsRc4Xor (p : Param) (s : State) : Operands :=
  { legalParam := paramOnly p, legalKeyLen := rc4KeyLen s.keylen,
    key := rangeAt s.keyp s.keylen.toNat,
    src := rangeAt s.src s.len.toNat, dst := rangeAt s.dst s.len.toNat }

def operandsTriviumXor (p : Param) (s : State) : Operands :=
  { legalParam := paramOnly p, legalKeyLen := s.keylen.toNat == 10,
    key := rangeAt s.keyp 10, iv := rangeAt s.ivp 10,
    src := rangeAt s.src s.len.toNat, dst := rangeAt s.dst s.len.toNat }

/-- The rows of the three `*.COMPRESS` commands, for a chaining value of `n` bytes. -/
def operandsCompress (n : Nat) (p : Param) (s : State) : Operands :=
  { legalParam := paramOnly p, legalLen := s.len.toNat == 64,
    iv := rangeAt s.ivp n, src := rangeAt s.src 64, dst := rangeAt s.dst n }

/-- The rows of the four `*.HASH` commands, for a digest of `n` bytes. -/
def operandsHash (n : Nat) (p : Param) (s : State) : Operands :=
  { legalParam := paramOnly p,
    src := rangeAt s.src s.len.toNat, dst := rangeAt s.dst n }

def operandsKeccakF1600 (p : Param) (s : State) : Operands :=
  { legalParam := paramOnly p, legalLen := s.len.toNat == 200,
    src := rangeAt s.src 200, dst := rangeAt s.dst 200 }

/-- The checks, then the command's own effect `done`, which a failing check keeps from being performed at all (R84). -/
def checked (o : Operands) (s : State) (done : State → State) : Host.Outcome State Fault Refusal :=
  match o.firstError s.memSize with
  | some e => .next (s.raise e)
  | none => .next (done s)

/-- `Issue` of a decoded command (R84): check, read all inputs, compute, write the output, write `STATUS`. The engine's function
`f` is given the bytes read, and its result does not change `MEM` before all of them are read (R60). -/
def runCommand (o : Operands) (f : Inputs → List Byte) (s : State) : Host.Outcome State Fault Refusal :=
  checked o s fun s => (s.setMem (s.mem.writeRange o.dst (f (o.inputs s.mem)))).succeed

end Sys2Proof.Machine
end

