-- ==== Sys2Proof/Machine/Gf.lean ====
section
/-! DEFINITION. The Galois-field and bit-permutation utilities and `GF.MUL` (40_gf_utilities.md R110 to R114). -/

namespace Sys2Proof.Machine

/-- One doubling in the field: shift left, and XOR with 0x1B when bit 7 is carried out (R111). -/
def gfDouble (a : Byte) : Byte := if a.getLsbD 7 then (a <<< 1) ^^^ 0x1B else a <<< 1

/-- The loop of R111 after `8 - n` of its 8 turns, with the product so far in `p`. -/
def gfMulLoop : Nat → Byte → Byte → Byte → Byte
  | 0, _, _, p => p
  | n + 1, a, b, p => gfMulLoop n (gfDouble a) (b >>> 1) (if b.getLsbD 0 then p ^^^ a else p)

/-- `gf_mul(a, b)`: peasant multiplication with carry reduction modulo x^8+x^4+x^3+x+1 (R110, R111). -/
def gfMul (a b : Byte) : Byte := gfMulLoop 8 a b 0

/-- `ALOG[i]`, 0x03 raised to the power `i` (R112). -/
def gfAlog : Nat → Byte
  | 0 => 1
  | i + 1 => gfMul (gfAlog i) 0x03

/-- The `ALOG` table of R112, `ALOG[0]` first. -/
def gfAlogTable : List Byte :=
  (List.range 254).foldl (fun t _ => gfMul (t.headD 0) 0x03 :: t) [1] |>.reverse

/-- `LOG[a]`: the `i` in 0..254 with `ALOG[i] = a` (R112). -/
def gfLog (a : Byte) : Nat := gfAlogTable.idxOf a

/-- The log/antilog-table variant `gf_mul_t` (R112). It is a property, not a second datapath: no command computes it. -/
def gfMulTable (a b : Byte) : Byte :=
  if a = 0 ∨ b = 0 then 0 else gfAlogTable.getD ((gfLog a + gfLog b) % 255) 0

/-- `permute(block, from_width, to_width, table)` (R113): output position `i` takes input position `table[i]`, both 1-indexed
from the most significant bit. No command reaches it (D43). -/
def permute (fromWidth toWidth : Nat) (block : BitVec fromWidth) (table : List Nat) : BitVec toWidth :=
  ofBits toWidth fun j => block.getLsbD (fromWidth - table.getD (toWidth - 1 - j) 0)

/-- `GF.MUL` (R114): the product of the two bytes at `SRC` to the byte at `DST`. -/
def execGfMul (p : Param) (s : State) : Host.Outcome State Fault Refusal :=
  runCommand (operandsGfMul p s) (fun x => [gfMul (x.src.getD 0 0) (x.src.getD 1 0)]) s

end Sys2Proof.Machine
end

