-- ==== Sys2Proof/Machine/Aes.lean ====
section
/-! DEFINITION. The AES-128 key-schedule and round engine and its four commands (41_aes128.md R120 to R138). A state, a block
and a round key are 16 bytes, byte `r + 4c` in row `r` and column `c` (R120). -/

namespace Sys2Proof.Machine

/-- The S-box, rows `a div 16`, columns `a mod 16` (R121). -/
def sboxRows : List (List Byte) :=
  [ [0x63, 0x7c, 0x77, 0x7b, 0xf2, 0x6b, 0x6f, 0xc5, 0x30, 0x01, 0x67, 0x2b, 0xfe, 0xd7, 0xab, 0x76],
    [0xca, 0x82, 0xc9, 0x7d, 0xfa, 0x59, 0x47, 0xf0, 0xad, 0xd4, 0xa2, 0xaf, 0x9c, 0xa4, 0x72, 0xc0],
    [0xb7, 0xfd, 0x93, 0x26, 0x36, 0x3f, 0xf7, 0xcc, 0x34, 0xa5, 0xe5, 0xf1, 0x71, 0xd8, 0x31, 0x15],
    [0x04, 0xc7, 0x23, 0xc3, 0x18, 0x96, 0x05, 0x9a, 0x07, 0x12, 0x80, 0xe2, 0xeb, 0x27, 0xb2, 0x75] ] ++
  [ [0x09, 0x83, 0x2c, 0x1a, 0x1b, 0x6e, 0x5a, 0xa0, 0x52, 0x3b, 0xd6, 0xb3, 0x29, 0xe3, 0x2f, 0x84],
    [0x53, 0xd1, 0x00, 0xed, 0x20, 0xfc, 0xb1, 0x5b, 0x6a, 0xcb, 0xbe, 0x39, 0x4a, 0x4c, 0x58, 0xcf],
    [0xd0, 0xef, 0xaa, 0xfb, 0x43, 0x4d, 0x33, 0x85, 0x45, 0xf9, 0x02, 0x7f, 0x50, 0x3c, 0x9f, 0xa8],
    [0x51, 0xa3, 0x40, 0x8f, 0x92, 0x9d, 0x38, 0xf5, 0xbc, 0xb6, 0xda, 0x21, 0x10, 0xff, 0xf3, 0xd2] ] ++
  [ [0xcd, 0x0c, 0x13, 0xec, 0x5f, 0x97, 0x44, 0x17, 0xc4, 0xa7, 0x7e, 0x3d, 0x64, 0x5d, 0x19, 0x73],
    [0x60, 0x81, 0x4f, 0xdc, 0x22, 0x2a, 0x90, 0x88, 0x46, 0xee, 0xb8, 0x14, 0xde, 0x5e, 0x0b, 0xdb],
    [0xe0, 0x32, 0x3a, 0x0a, 0x49, 0x06, 0x24, 0x5c, 0xc2, 0xd3, 0xac, 0x62, 0x91, 0x95, 0xe4, 0x79],
    [0xe7, 0xc8, 0x37, 0x6d, 0x8d, 0xd5, 0x4e, 0xa9, 0x6c, 0x56, 0xf4, 0xea, 0x65, 0x7a, 0xae, 0x08] ] ++
  [ [0xba, 0x78, 0x25, 0x2e, 0x1c, 0xa6, 0xb4, 0xc6, 0xe8, 0xdd, 0x74, 0x1f, 0x4b, 0xbd, 0x8b, 0x8a],
    [0x70, 0x3e, 0xb5, 0x66, 0x48, 0x03, 0xf6, 0x0e, 0x61, 0x35, 0x57, 0xb9, 0x86, 0xc1, 0x1d, 0x9e],
    [0xe1, 0xf8, 0x98, 0x11, 0x69, 0xd9, 0x8e, 0x94, 0x9b, 0x1e, 0x87, 0xe9, 0xce, 0x55, 0x28, 0xdf],
    [0x8c, 0xa1, 0x89, 0x0d, 0xbf, 0xe6, 0x42, 0x68, 0x41, 0x99, 0x2d, 0x0f, 0xb0, 0x54, 0xbb, 0x16] ]

/-- `SBOX[a]` (R121). -/
def sbox (a : Byte) : Byte := (sboxRows.getD (a.toNat / 16) []).getD (a.toNat % 16) 0

/-- The inverse S-box (R122). No command reads it: it is there to state the inverse layers. -/
def invSboxRows : List (List Byte) :=
  [ [0x52, 0x09, 0x6a, 0xd5, 0x30, 0x36, 0xa5, 0x38, 0xbf, 0x40, 0xa3, 0x9e, 0x81, 0xf3, 0xd7, 0xfb],
    [0x7c, 0xe3, 0x39, 0x82, 0x9b, 0x2f, 0xff, 0x87, 0x34, 0x8e, 0x43, 0x44, 0xc4, 0xde, 0xe9, 0xcb],
    [0x54, 0x7b, 0x94, 0x32, 0xa6, 0xc2, 0x23, 0x3d, 0xee, 0x4c, 0x95, 0x0b, 0x42, 0xfa, 0xc3, 0x4e],
    [0x08, 0x2e, 0xa1, 0x66, 0x28, 0xd9, 0x24, 0xb2, 0x76, 0x5b, 0xa2, 0x49, 0x6d, 0x8b, 0xd1, 0x25] ] ++
  [ [0x72, 0xf8, 0xf6, 0x64, 0x86, 0x68, 0x98, 0x16, 0xd4, 0xa4, 0x5c, 0xcc, 0x5d, 0x65, 0xb6, 0x92],
    [0x6c, 0x70, 0x48, 0x50, 0xfd, 0xed, 0xb9, 0xda, 0x5e, 0x15, 0x46, 0x57, 0xa7, 0x8d, 0x9d, 0x84],
    [0x90, 0xd8, 0xab, 0x00, 0x8c, 0xbc, 0xd3, 0x0a, 0xf7, 0xe4, 0x58, 0x05, 0xb8, 0xb3, 0x45, 0x06],
    [0xd0, 0x2c, 0x1e, 0x8f, 0xca, 0x3f, 0x0f, 0x02, 0xc1, 0xaf, 0xbd, 0x03, 0x01, 0x13, 0x8a, 0x6b] ] ++
  [ [0x3a, 0x91, 0x11, 0x41, 0x4f, 0x67, 0xdc, 0xea, 0x97, 0xf2, 0xcf, 0xce, 0xf0, 0xb4, 0xe6, 0x73],
    [0x96, 0xac, 0x74, 0x22, 0xe7, 0xad, 0x35, 0x85, 0xe2, 0xf9, 0x37, 0xe8, 0x1c, 0x75, 0xdf, 0x6e],
    [0x47, 0xf1, 0x1a, 0x71, 0x1d, 0x29, 0xc5, 0x89, 0x6f, 0xb7, 0x62, 0x0e, 0xaa, 0x18, 0xbe, 0x1b],
    [0xfc, 0x56, 0x3e, 0x4b, 0xc6, 0xd2, 0x79, 0x20, 0x9a, 0xdb, 0xc0, 0xfe, 0x78, 0xcd, 0x5a, 0xf4] ] ++
  [ [0x1f, 0xdd, 0xa8, 0x33, 0x88, 0x07, 0xc7, 0x31, 0xb1, 0x12, 0x10, 0x59, 0x27, 0x80, 0xec, 0x5f],
    [0x60, 0x51, 0x7f, 0xa9, 0x19, 0xb5, 0x4a, 0x0d, 0x2d, 0xe5, 0x7a, 0x9f, 0x93, 0xc9, 0x9c, 0xef],
    [0xa0, 0xe0, 0x3b, 0x4d, 0xae, 0x2a, 0xf5, 0xb0, 0xc8, 0xeb, 0xbb, 0x3c, 0x83, 0x53, 0x99, 0x61],
    [0x17, 0x2b, 0x04, 0x7e, 0xba, 0x77, 0xd6, 0x26, 0xe1, 0x69, 0x14, 0x63, 0x55, 0x21, 0x0c, 0x7d] ]

/-- `INV_SBOX[a]` (R122). -/
def invSbox (a : Byte) : Byte := (invSboxRows.getD (a.toNat / 16) []).getD (a.toNat % 16) 0

/-- A 16-byte state from a function of the byte's index. -/
def aesState (f : Nat → Byte) : List Byte := (List.range 16).map f

/-- `SubBytes` (R123). -/
def subBytes (s : List Byte) : List Byte := aesState fun i => sbox (s.getD i 0)

/-- `ShiftRows` (R124): `b'[r + 4c] = b[r + 4((c + r) mod 4)]`, the direction chosen by 90_conflicts.md C1. -/
def shiftRows (s : List Byte) : List Byte :=
  aesState fun i => s.getD (i % 4 + 4 * ((i / 4 + i % 4) % 4)) 0

/-- The MDS matrix of R125, by row. -/
def mixMatrix : List (List Byte) := [[2, 3, 1, 1], [1, 2, 3, 1], [1, 1, 2, 3], [3, 1, 1, 2]]

/-- `MixColumns` (R125): column `c` of the result is the matrix times column `c` of the state. -/
def mixColumns (s : List Byte) : List Byte :=
  aesState fun i =>
    let row := mixMatrix.getD (i % 4) []
    let col := fun k => s.getD (k + 4 * (i / 4)) 0
    gfMul (row.getD 0 0) (col 0) ^^^ gfMul (row.getD 1 0) (col 1) ^^^
      gfMul (row.getD 2 0) (col 2) ^^^ gfMul (row.getD 3 0) (col 3)

/-- `AddRoundKey` (R126). -/
def addRoundKey (s k : List Byte) : List Byte := aesState fun i => s.getD i 0 ^^^ k.getD i 0

/-- A word of the key schedule: 4 bytes in order (R127). -/
structure AesWord where
  t0 : Byte
  t1 : Byte
  t2 : Byte
  t3 : Byte
  deriving DecidableEq, Repr

def aesWordBytes (w : AesWord) : List Byte := [w.t0, w.t1, w.t2, w.t3]

def aesWordXor (a b : AesWord) : AesWord := ⟨a.t0 ^^^ b.t0, a.t1 ^^^ b.t1, a.t2 ^^^ b.t2, a.t3 ^^^ b.t3⟩

/-- `RotWord`, `SubWord` (R127). -/
def rotWord (w : AesWord) : AesWord := ⟨w.t1, w.t2, w.t3, w.t0⟩
def subWord (w : AesWord) : AesWord := ⟨sbox w.t0, sbox w.t1, sbox w.t2, sbox w.t3⟩

/-- `RCON[j]`, `j` from 1: powers of x in GF(2^8) starting at x^0 (R128). -/
def rcon : Nat → Byte
  | 0 => 0
  | 1 => 1
  | j + 2 => gfMul (rcon (j + 1)) 0x02

/-- `g(t, j)` (R127). -/
def keyG (t : AesWord) (j : Nat) : AesWord := aesWordXor (subWord (rotWord t)) ⟨rcon j, 0, 0, 0⟩

/-- Word `i` of a 16-byte key (R127). -/
def keyWord (key : List Byte) (i : Nat) : AesWord :=
  ⟨key.getD (4 * i) 0, key.getD (4 * i + 1) 0, key.getD (4 * i + 2) 0, key.getD (4 * i + 3) 0⟩

/-- One turn of the loop of R130 for word `i`; the words so far stand last word first, so that `w[i-1]` is entry 0 and
`w[i-4]` entry 3. -/
def keyStep (ws : List AesWord) (i : Nat) : List AesWord :=
  let last := ws.getD 0 ⟨0, 0, 0, 0⟩
  let t := if i % 4 = 0 then keyG last (i / 4) else last
  aesWordXor (ws.getD 3 ⟨0, 0, 0, 0⟩) t :: ws

/-- `w[0 .. 43]` (R130). -/
def keyWords (key : List Byte) : List AesWord :=
  ((List.range' 4 40).foldl keyStep [keyWord key 3, keyWord key 2, keyWord key 1, keyWord key 0]).reverse

/-- `rk[r]`, four words in order (R130). -/
def roundKey (ws : List AesWord) (r : Nat) : List Byte :=
  (List.range 4).flatMap fun j => aesWordBytes (ws.getD (4 * r + j) ⟨0, 0, 0, 0⟩)

/-- `KeyExpansion`: the round keys `rk[0 .. 10]` (R130). -/
def keyExpansion (key : List Byte) : List (List Byte) :=
  let ws := keyWords key
  (List.range 11).map (roundKey ws)

/-- `Round(s, k)` (R131) and `FinalRound(s, k)` (R132). -/
def aesRound (s k : List Byte) : List Byte := addRoundKey (mixColumns (shiftRows (subBytes s))) k
def aesFinalRound (s k : List Byte) : List Byte := addRoundKey (shiftRows (subBytes s)) k

/-- `Encrypt(pt, key)` (R133). -/
def aesEncrypt (pt key : List Byte) : List Byte :=
  let rk := keyExpansion key
  let s := (List.range' 1 9).foldl (fun s r => aesRound s (rk.getD r [])) (addRoundKey pt (rk.getD 0 []))
  aesFinalRound s (rk.getD 10 [])

/-- `AES128.KEYEXP` (R135): the 11 round keys, `rk[r]` at `DST + 16 r`. -/
def execAes128Keyexp (p : Param) (s : State) : Host.Outcome State Fault Refusal :=
  runCommand (operandsAes128Keyexp p s) (fun x => (keyExpansion x.key).flatten) s

/-- `AES.RND` (R136): one full round; the key bytes are the round key, used as they are. -/
def execAesRnd (p : Param) (s : State) : Host.Outcome State Fault Refusal :=
  runCommand (operandsAesBlock p s) (fun x => aesRound x.src x.key) s

/-- `AES.RNDLAST` (R137): the final round. -/
def execAesRndlast (p : Param) (s : State) : Host.Outcome State Fault Refusal :=
  runCommand (operandsAesBlock p s) (fun x => aesFinalRound x.src x.key) s

/-- `AES128.ENC` (R138). -/
def execAes128Enc (p : Param) (s : State) : Host.Outcome State Fault Refusal :=
  runCommand (operandsAesBlock p s) (fun x => aesEncrypt x.src x.key) s

end Sys2Proof.Machine
end

