-- ==== Sys2Proof/Machine/Stream.lean ====
section
/-! DEFINITION. What ChaCha and Salsa share: words, round counts, quarter-rounds placed in a state, key words and constants, and
stream encryption (43_chacha_salsa.md R170, R175, R183, R186). -/

namespace Sys2Proof.Machine

/-- The four words of a quarter-round. -/
structure Quad where
  a : Word
  b : Word
  c : Word
  d : Word
  deriving DecidableEq, Repr

/-- The bytes of four words, each little-endian (R187, R191). -/
def quadBytes (q : Quad) : List Byte := bytesLE [q.a, q.b, q.c, q.d]

/-- Four words from 16 bytes, each little-endian (R187, R191). -/
def quadOfBytes (b : List Byte) : Quad :=
  ⟨le32 (slice b 0 4), le32 (slice b 4 4), le32 (slice b 8 4), le32 (slice b 12 4)⟩

/-- `QR(i,j,k,l)` (R172, R178): a quarter-round on four words of a state. -/
def quarterAt (qr : Quad → Quad) (i j k l : Nat) (x : List Word) : List Word :=
  let q := qr ⟨x.getD i 0, x.getD j 0, x.getD k 0, x.getD l 0⟩
  (((x.set i q.a).set j q.b).set k q.c).set l q.d

/-- `R` rounds, the even ones of one kind and the odd ones of the other (R173, R179). -/
def alternate (even odd : List Word → List Word) (rounds : Nat) (x : List Word) : List Word :=
  (List.range rounds).foldl (fun x r => if r % 2 = 0 then even x else odd x) x

/-- The round count that `PARAM` selects (R186): 20, 12 or 8. -/
def roundCount (p : Param) : Nat := if p == 0 then 20 else if p == 1 then 12 else 8

/-- The constants `c[0..3]` (R175): "expand 32-byte k" for a 32-byte key, "expand 16-byte k" for a 16-byte key. -/
def streamConstants (keyLen : Nat) : List Word :=
  if keyLen = 32 then [0x61707865, 0x3320646e, 0x79622d32, 0x6b206574]
  else [0x61707865, 0x3120646e, 0x79622d36, 0x6b206574]

/-- The key words `k[0..7]` (R175): a 16-byte key is used twice. -/
def streamKeyWords (key : List Byte) : List Word :=
  if key.length = 32 then wordsLE 8 key else wordsLE 4 key ++ wordsLE 4 key

/-- `StreamXor` with `q` blocks left and the counter at `ctr` (R183); the counter wraps modulo 2^64 (D30). -/
def streamXorFrom (block : DWord → List Byte) : Nat → DWord → List Byte → List Byte
  | 0, _, _ => []
  | q + 1, ctr, m => xorBytes (m.take 64) (block ctr) ++ streamXorFrom block q (ctr + 1) (m.drop 64)

/-- `StreamXor(Block, input, key, nonce, ctr0, R)` (R183) for a block function already given key, nonce and round count:
`ceil(n / 64)` blocks, the last one cut to what is left of the input. -/
def streamXor (block : DWord → List Byte) (ctr0 : DWord) (m : List Byte) : List Byte :=
  streamXorFrom block ((m.length + 63) / 64) ctr0 m

end Sys2Proof.Machine
end

