-- ==== Sys2Proof/Machine/Chacha.lean ====
section
/-! DEFINITION. The ChaCha engine and its four commands (43_chacha_salsa.md R171 to R176, R187 to R190). -/

namespace Sys2Proof.Machine

/-- `ChaChaQR` (R171). -/
def chachaQr (q : Quad) : Quad :=
  let a := q.a + q.b
  let d := (q.d ^^^ a).rotateLeft 16
  let c := q.c + d
  let b := (q.b ^^^ c).rotateLeft 12
  let a := a + b
  let d := (d ^^^ a).rotateLeft 8
  let c := c + d
  let b := (b ^^^ c).rotateLeft 7
  ⟨a, b, c, d⟩

/-- `ColumnRound`, `DiagonalRound` (R172). -/
def chachaColumnRound (x : List Word) : List Word :=
  x |> quarterAt chachaQr 0 4 8 12 |> quarterAt chachaQr 1 5 9 13
    |> quarterAt chachaQr 2 6 10 14 |> quarterAt chachaQr 3 7 11 15
def chachaDiagonalRound (x : List Word) : List Word :=
  x |> quarterAt chachaQr 0 5 10 15 |> quarterAt chachaQr 1 6 11 12
    |> quarterAt chachaQr 2 7 8 13 |> quarterAt chachaQr 3 4 9 14

/-- `ChaChaCore(in, R)`: rounds and feed-forward (R173, R174). -/
def chachaCore (rounds : Nat) (x : List Word) : List Word :=
  List.zipWith (· + ·) (alternate chachaColumnRound chachaDiagonalRound rounds x) x

/-- The seeded state (R175). -/
def chachaSeed (key nonce : List Byte) (ctr : DWord) : List Word :=
  let c := streamConstants key.length
  let k := streamKeyWords key
  let n := wordsLE 2 nonce
  [ c.getD 0 0, c.getD 1 0, c.getD 2 0, c.getD 3 0,
    k.getD 0 0, k.getD 1 0, k.getD 2 0, k.getD 3 0,
    k.getD 4 0, k.getD 5 0, k.getD 6 0, k.getD 7 0,
    ctr.extractLsb' 0 32, ctr.extractLsb' 32 32, n.getD 0 0, n.getD 1 0 ]

/-- `ChaChaBlock(key, nonce, ctr, R)` (R176). -/
def chachaBlock (rounds : Nat) (key nonce : List Byte) (ctr : DWord) : List Byte :=
  bytesLE (chachaCore rounds (chachaSeed key nonce ctr))

/-- `CHACHA.QR` (R187). -/
def execChachaQr (p : Param) (s : State) : Host.Outcome State Fault Refusal :=
  runCommand (operandsQr p s) (fun x => quadBytes (chachaQr (quadOfBytes x.src))) s

/-- `CHACHA.CORE` (R188). -/
def execChachaCore (p : Param) (s : State) : Host.Outcome State Fault Refusal :=
  runCommand (operandsCore p s) (fun x => bytesLE (chachaCore (roundCount p) (wordsLE 16 x.src))) s

/-- `CHACHA20.BLOCK` (R189). -/
def execChacha20Block (p : Param) (s : State) : Host.Outcome State Fault Refusal :=
  runCommand (operandsBlock p s) (fun x => chachaBlock (roundCount p) x.key x.iv s.ctr) s

/-- `CHACHA20.XOR` (R190). -/
def execChacha20Xor (p : Param) (s : State) : Host.Outcome State Fault Refusal :=
  runCommand (operandsStreamXor p s) (fun x => streamXor (chachaBlock (roundCount p) x.key x.iv) s.ctr x.src) s

end Sys2Proof.Machine
end

