-- ==== Sys2Proof/Machine/Keccak.lean ====
section
/-! DEFINITION. The Keccak-f[1600] permutation, the SHA3-256 sponge and their two commands (47_keccak_sha3.md R260 to R274). The
state is 25 lanes; lane `A[x][y]` stands at entry `x + 5y` (R260). -/

namespace Sys2Proof.Machine

/-- A state of 25 lanes from a function of column `x` and row `y`; lane `A[x][y]`, the indices modulo 5. -/
def lanes (f : Nat → Nat → DWord) : List DWord := (List.range 25).map fun i => f (i % 5) (i / 5)
def lane (A : List DWord) (x y : Nat) : DWord := A.getD (x % 5 + 5 * (y % 5)) 0

/-- `C[x]` and `D[x]` of θ (R261); `x - 1` modulo 5 is `x + 4`. -/
def thetaC (A : List DWord) (x : Nat) : DWord :=
  lane A x 0 ^^^ lane A x 1 ^^^ lane A x 2 ^^^ lane A x 3 ^^^ lane A x 4
def thetaD (A : List DWord) (x : Nat) : DWord := thetaC A (x + 4) ^^^ (thetaC A (x + 1)).rotateLeft 1

/-- θ (R261). -/
def keccakTheta (A : List DWord) : List DWord :=
  let D := (List.range 5).map (thetaD A)
  lanes fun x y => lane A x y ^^^ D.getD x 0

/-- The rotation offsets `r[x][y]`, rows `y`, columns `x` (R262). -/
def rhoOffsets : List (List Nat) :=
  [ [0, 1, 62, 28, 27], [36, 44, 6, 55, 20], [3, 10, 43, 25, 39], [41, 45, 15, 21, 8], [18, 2, 61, 56, 14] ]

/-- ρ (R262). -/
def keccakRho (A : List DWord) : List DWord :=
  lanes fun x y => (lane A x y).rotateLeft ((rhoOffsets.getD y []).getD x 0)

/-- π (R263). -/
def keccakPi (A : List DWord) : List DWord := lanes fun x y => lane A (x + 3 * y) x

/-- χ (R264): the right-hand sides use the row as it was. -/
def keccakChi (A : List DWord) : List DWord :=
  lanes fun x y => lane A x y ^^^ (~~~lane A (x + 1) y &&& lane A (x + 2) y)

/-- `RC[0..23]` (R265). -/
def keccakRC : List DWord :=
  [ 0x0000000000000001, 0x0000000000008082, 0x800000000000808a, 0x8000000080008000 ] ++
  [ 0x000000000000808b, 0x0000000080000001, 0x8000000080008081, 0x8000000000008009 ] ++
  [ 0x000000000000008a, 0x0000000000000088, 0x0000000080008009, 0x000000008000000a ] ++
  [ 0x000000008000808b, 0x800000000000008b, 0x8000000000008089, 0x8000000000008003 ] ++
  [ 0x8000000000008002, 0x8000000000000080, 0x000000000000800a, 0x800000008000000a ] ++
  [ 0x8000000080008081, 0x8000000000008080, 0x0000000080000001, 0x8000000080008008 ]

/-- ι (R265). -/
def keccakIota (A : List DWord) (ir : Nat) : List DWord := A.set 0 (lane A 0 0 ^^^ keccakRC.getD ir 0)

/-- One round, and the permutation of 24 rounds (R266). -/
def keccakRound (A : List DWord) (ir : Nat) : List DWord :=
  keccakIota (keccakChi (keccakPi (keccakRho (keccakTheta A)))) ir
def keccakF (A : List DWord) : List DWord := (List.range 24).foldl keccakRound A

/-- The lanes of a 200-byte state, and the bytes of 25 lanes (R260). -/
def lanesOfBytes (st : List Byte) : List DWord := (List.range 25).map fun i => le64 (slice st (8 * i) 8)
def bytesOfLanes (A : List DWord) : List Byte := A.flatMap toLE64

/-- `KeccakFBytes(st)` (R267). -/
def keccakFBytes (st : List Byte) : List Byte := bytesOfLanes (keccakF (lanesOfBytes st))

/-- The rate of SHA3-256 in bytes (R260, R7). -/
def sha3Rate : Nat := 136

/-- `Pad3(msg)` (R268). -/
def sha3Pad (m : List Byte) : List Byte :=
  let q := sha3Rate - m.length % sha3Rate
  if q = 1 then m ++ [0x86] else m ++ [0x06] ++ List.replicate (q - 2) 0 ++ [0x80]

/-- One block XORed into the rate portion; the capacity bytes stay (R269). -/
def sha3XorBlock (st block : List Byte) : List Byte :=
  (List.range 200).map fun t => if t < sha3Rate then st.getD t 0 ^^^ block.getD t 0 else st.getD t 0

/-- `n` blocks absorbed in order (R269). -/
def sha3AbsorbBlocks : Nat → List Byte → List Byte → List Byte
  | 0, st, _ => st
  | n + 1, st, p => sha3AbsorbBlocks n (keccakFBytes (sha3XorBlock st (p.take sha3Rate))) (p.drop sha3Rate)

/-- `Absorb(p)` (R269). -/
def sha3Absorb (p : List Byte) : List Byte := sha3AbsorbBlocks (p.length / sha3Rate) (List.replicate 200 0) p

/-- `sha3_256(message)`: the first 32 bytes of the rate, squeezed once (R270, R271). -/
def sha3 (m : List Byte) : List Byte := (sha3Absorb (sha3Pad m)).take 32

/-- `KECCAK.F1600` (R273). -/
def execKeccakF1600 (p : Param) (s : State) : Host.Outcome State Fault Refusal :=
  runCommand (operandsKeccakF1600 p s) (fun x => keccakFBytes x.src) s

/-- `SHA3_256.HASH` (R274). -/
def execSha3Hash (p : Param) (s : State) : Host.Outcome State Fault Refusal :=
  runCommand (operandsHash 32 p s) (fun x => sha3 x.src) s

end Sys2Proof.Machine
end

