-- ==== Sys2Proof/Machine/Hash.lean ====
section
/-! DEFINITION. What MD5, SHA-1 and SHA-256 share: padding and block iteration (46_hashes.md R220, R221). -/

namespace Sys2Proof.Machine

/-- The number of zero bytes of the padding of an `n`-byte message: `(55 - n) mod 64`, 63 being -1 modulo 64 (R220). -/
def padZeros (n : Nat) : Nat := (55 + 63 * n) % 64

/-- `Pad(msg, order)` (R220); `lenField` is `ToBE64` or `ToLE64`. -/
def hashPad (lenField : DWord → List Byte) (m : List Byte) : List Byte :=
  m ++ [0x80] ++ List.replicate (padZeros m.length) 0 ++ lenField (BitVec.ofNat 64 (8 * m.length))

/-- `n` blocks of 64 bytes run through a compression function, in order (R221). -/
def hashBlocks (compress : List Word → List Byte → List Word) : Nat → List Word → List Byte → List Word
  | 0, h, _ => h
  | n + 1, h, p => hashBlocks compress n (compress h (p.take 64)) (p.drop 64)

/-- The running hash state after all blocks of a padded message (R221). -/
def hashWords (compress : List Word → List Byte → List Word) (iv : List Word) (p : List Byte) : List Word :=
  hashBlocks compress (p.length / 64) iv p

/-- The chaining value plus the working variables, word by word modulo 2^32: how every compression ends (R227, R234, R245). -/
def addToChaining (h v : List Word) : List Word := (List.range v.length).map fun k => h.getD k 0 + v.getD k 0

end Sys2Proof.Machine
end

