-- ==== Sys2Proof/Machine/Md5.lean ====
section
/-! DEFINITION. The MD5 engine and its two commands (46_hashes.md R222 to R229, R250, R251). -/

namespace Sys2Proof.Machine

/-- The initial chaining value (R222). -/
def md5Iv : List Word := [0x67452301, 0xefcdab89, 0x98badcfe, 0x10325476]

/-- The round constants in the rows of four that R223 prints: entry `r`, `c` is `K[4r + c]`. -/
def md5KRows : List (List Word) :=
  [ [0xd76aa478, 0xe8c7b756, 0x242070db, 0xc1bdceee],
    [0xf57c0faf, 0x4787c62a, 0xa8304613, 0xfd469501],
    [0x698098d8, 0x8b44f7af, 0xffff5bb1, 0x895cd7be],
    [0x6b901122, 0xfd987193, 0xa679438e, 0x49b40821] ] ++
  [ [0xf61e2562, 0xc040b340, 0x265e5a51, 0xe9b6c7aa],
    [0xd62f105d, 0x02441453, 0xd8a1e681, 0xe7d3fbc8],
    [0x21e1cde6, 0xc33707d6, 0xf4d50d87, 0x455a14ed],
    [0xa9e3e905, 0xfcefa3f8, 0x676f02d9, 0x8d2a4c8a] ] ++
  [ [0xfffa3942, 0x8771f681, 0x6d9d6122, 0xfde5380c],
    [0xa4beea44, 0x4bdecfa9, 0xf6bb4b60, 0xbebfbc70],
    [0x289b7ec6, 0xeaa127fa, 0xd4ef3085, 0x04881d05],
    [0xd9d4d039, 0xe6db99e5, 0x1fa27cf8, 0xc4ac5665] ] ++
  [ [0xf4292244, 0x432aff97, 0xab9423a7, 0xfc93a039],
    [0x655b59c3, 0x8f0ccc92, 0xffeff47d, 0x85845dd1],
    [0x6fa87e4f, 0xfe2ce6e0, 0xa3014314, 0x4e0811a1],
    [0xf7537e82, 0xbd3af235, 0x2ad7d2bb, 0xeb86d391] ]

/-- `K[0..63]` (R223). -/
def md5K : List Word := md5KRows.flatten

/-- The rotation amounts `s[0..63]` (R224): four amounts for each run of 16 rounds, used in turn. -/
def md5Rotations : List (List Nat) := [[7, 12, 17, 22], [5, 9, 14, 20], [4, 11, 16, 23], [6, 10, 15, 21]]
def md5S (i : Nat) : Nat := (md5Rotations.getD (i / 16) []).getD (i % 4) 0

/-- The round function `F_i(B, C, D)` (R225). -/
def md5F (i : Nat) (b c d : Word) : Word :=
  if i < 16 then (b &&& c) ||| (~~~b &&& d)
  else if i < 32 then (d &&& b) ||| (~~~d &&& c)
  else if i < 48 then b ^^^ c ^^^ d
  else c ^^^ (b ||| ~~~d)

/-- The message index `g_i` (R225). -/
def md5G (i : Nat) : Nat :=
  if i < 16 then i
  else if i < 32 then (5 * i + 1) % 16
  else if i < 48 then (3 * i + 5) % 16
  else 7 * i % 16

/-- The four working variables. -/
structure Md5Vars where
  a : Word
  b : Word
  c : Word
  d : Word
  deriving DecidableEq, Repr

/-- `MD5Round(i, A, B, C, D, M)` (R226). -/
def md5Round (M : List Word) (v : Md5Vars) (i : Nat) : Md5Vars :=
  let f := md5F i v.b v.c v.d + v.a + md5K.getD i 0 + M.getD (md5G i) 0
  ⟨v.d, v.b + f.rotateLeft (md5S i), v.b, v.c⟩

/-- `MD5Compress(h, block)` (R227). -/
def md5Compress (h : List Word) (block : List Byte) : List Word :=
  let v := (List.range 64).foldl (md5Round (wordsLE 16 block)) ⟨h.getD 0 0, h.getD 1 0, h.getD 2 0, h.getD 3 0⟩
  addToChaining h [v.a, v.b, v.c, v.d]

/-- `md5(message)`, little-endian throughout (R228, R229). -/
def md5 (m : List Byte) : List Byte := bytesLE (hashWords md5Compress md5Iv (hashPad toLE64 m))

/-- `MD5.COMPRESS` (R250). -/
def execMd5Compress (p : Param) (s : State) : Host.Outcome State Fault Refusal :=
  runCommand (operandsCompress 16 p s) (fun x => bytesLE (md5Compress (wordsLE 4 x.iv) x.src)) s

/-- `MD5.HASH` (R251). -/
def execMd5Hash (p : Param) (s : State) : Host.Outcome State Fault Refusal :=
  runCommand (operandsHash 16 p s) (fun x => md5 x.src) s

end Sys2Proof.Machine
end

