-- ==== Sys2Proof/Machine/Present.lean ====
section
/-! DEFINITION. The PRESENT substitution-permutation engine and its three commands (42_present.md R150 to R164). A block is a
64-bit value, nibble `j` its bits `4j+3 .. 4j`; in `MEM` blocks, keys and subkeys are big-endian (R150, R155, D28). -/

namespace Sys2Proof.Machine

/-- The S-box `S` and its inverse `S_inv` (R151). -/
def presentSboxTable : List (BitVec 4) :=
  [0xC, 0x5, 0x6, 0xB, 0x9, 0x0, 0xA, 0xD, 0x3, 0xE, 0xF, 0x8, 0x4, 0x7, 0x1, 0x2]
def presentInvSboxTable : List (BitVec 4) :=
  [0x5, 0xE, 0xF, 0x8, 0xC, 0x1, 0x2, 0xD, 0xB, 0x4, 0x6, 0x3, 0x0, 0x7, 0x9, 0xA]
def presentSbox (x : BitVec 4) : BitVec 4 := presentSboxTable.getD x.toNat 0
def presentInvSbox (x : BitVec 4) : BitVec 4 := presentInvSboxTable.getD x.toNat 0

/-- A nibble function applied to every nibble of a block, independently: bit `i` of the result is bit `i mod 4` of the
function's value on nibble `i div 4`. -/
def mapNibbles (f : BitVec 4 → BitVec 4) (b : DWord) : DWord :=
  ofBits 64 fun i => (f (b.extractLsb' (4 * (i / 4)) 4)).getLsbD (i % 4)

/-- `sBoxLayer`, `sBoxLayer_inv` (R152). -/
def sBoxLayer (b : DWord) : DWord := mapNibbles presentSbox b
def sBoxLayerInv (b : DWord) : DWord := mapNibbles presentInvSbox b

/-- `P(i)` (R153). -/
def pPos (i : Nat) : Nat := if i < 63 then 16 * i % 63 else i

/-- The position that `P` sends to `j`: 16 * 4 = 64 = 1 modulo 63. DEDUCED (log entry 6): the spec prints `P` only. -/
def pPosInv (j : Nat) : Nat := if j < 63 then 4 * j % 63 else j

/-- `pLayer` (R153): output bit `P(i)` receives input bit `i`, so output bit `j` receives input bit `P⁻¹(j)`. -/
def pLayer (b : DWord) : DWord := ofBits 64 fun j => b.getLsbD (pPosInv j)

/-- `pLayer_inv` (R154): `b'[i] = b[P(i)]`. -/
def pLayerInv (b : DWord) : DWord := ofBits 64 fun i => b.getLsbD (pPos i)

/-- Loading the key register, `key[0]` on top (R155). -/
def presentLoad (n : Nat) (key : List Byte) : BitVec n := BitVec.ofNat n (beNat key)

/-- `Update80(K, i)` (R156): rotate left by 61, S-box on the top nibble, counter into `K[19:15]`. -/
def presentUpdate80 (k : BitVec 80) (i : BitVec 5) : BitVec 80 :=
  let k := k.rotateLeft 61
  (presentSbox (k.extractLsb' 76 4) ++ k.extractLsb' 0 76) ^^^ (i.setWidth 80 <<< 15)

/-- `Update128(K, i)` (R157): rotate left by 61, S-box on the two top nibbles, counter into `K[66:62]`. -/
def presentUpdate128 (k : BitVec 128) (i : BitVec 5) : BitVec 128 :=
  let k := k.rotateLeft 61
  (presentSbox (k.extractLsb' 124 4) ++ (presentSbox (k.extractLsb' 120 4) ++ k.extractLsb' 0 120)) ^^^
    (i.setWidth 128 <<< 62)

/-- `top64(K)` (R155). -/
def presentTop64 {n : Nat} (k : BitVec n) : DWord := k.extractLsb' (n - 64) 64

/-- The subkeys from a key register on (R158): `sk[i0 - 1]`, then `n` more, the counter running from `i0`. -/
def presentSubkeys {w : Nat} (update : BitVec w → BitVec 5 → BitVec w) : Nat → Nat → BitVec w → List DWord
  | 0, _, k => [presentTop64 k]
  | n + 1, i, k => presentTop64 k :: presentSubkeys update n (i + 1) (update k (BitVec.ofNat 5 i))

/-- `KeySchedule(key)`: the subkeys `sk[0 .. 31]` for the variant that `PARAM` selects (R158, R83). -/
def presentKeySchedule (p : Param) (key : List Byte) : List DWord :=
  if p == 0 then presentSubkeys presentUpdate80 31 1 (presentLoad 80 key)
  else presentSubkeys presentUpdate128 31 1 (presentLoad 128 key)

/-- One round of R159: key mix, S-box layer, permutation. -/
def presentRound (b k : DWord) : DWord := pLayer (sBoxLayer (b ^^^ k))

/-- One round of R160, which undoes the round of R159. -/
def presentInvRound (b k : DWord) : DWord := sBoxLayerInv (pLayerInv b) ^^^ k

/-- `PresentEncrypt` on given subkeys (R159). -/
def presentEncryptWith (sk : List DWord) (pt : DWord) : DWord :=
  (sk.take 31).foldl presentRound pt ^^^ sk.getD 31 0

/-- `PresentDecrypt` on given subkeys: the same 32, used backward (R160). -/
def presentDecryptWith (sk : List DWord) (ct : DWord) : DWord :=
  (sk.take 31).reverse.foldl presentInvRound (ct ^^^ sk.getD 31 0)

/-- `PresentEncrypt`, `PresentDecrypt` (R159, R160). -/
def presentEncrypt (p : Param) (pt : DWord) (key : List Byte) : DWord :=
  presentEncryptWith (presentKeySchedule p key) pt
def presentDecrypt (p : Param) (ct : DWord) (key : List Byte) : DWord :=
  presentDecryptWith (presentKeySchedule p key) ct

/-- `PRESENT.KEYSCHED` (R162): `sk[i]` at `DST + 8 i`, big-endian. -/
def execPresentKeysched (p : Param) (s : State) : Host.Outcome State Fault Refusal :=
  runCommand (operandsPresentKeysched p s) (fun x => (presentKeySchedule p x.key).flatMap toBE64) s

/-- `PRESENT.ENC` (R163). -/
def execPresentEnc (p : Param) (s : State) : Host.Outcome State Fault Refusal :=
  runCommand (operandsPresentBlock p s) (fun x => toBE64 (presentEncrypt p (be64 x.src) x.key)) s

/-- `PRESENT.DEC` (R164). -/
def execPresentDec (p : Param) (s : State) : Host.Outcome State Fault Refusal :=
  runCommand (operandsPresentBlock p s) (fun x => toBE64 (presentDecrypt p (be64 x.src) x.key)) s

end Sys2Proof.Machine
end

