-- ==== Sys2Proof/Machine/Rc4.lean ====
section
/-! DEFINITION. The RC4 engine and its two commands (44_rc4.md R200 to R205). -/

namespace Sys2Proof.Machine

/-- `S[i]`, and the swap of two entries (R201). -/
def rc4At (S : List Byte) (i : Byte) : Byte := S.getD i.toNat 0
def rc4Swap (S : List Byte) (i j : Byte) : List Byte := (S.set i.toNat (rc4At S j)).set j.toNat (rc4At S i)

/-- One of the 256 turns of the key schedule (R201); the pair is `S` and `j`. -/
def rc4KsaStep (key : List Byte) (Sj : List Byte × Byte) (i : Nat) : List Byte × Byte :=
  let j := Sj.2 + rc4At Sj.1 (BitVec.ofNat 8 i) + key.getD (i % key.length) 0
  (rc4Swap Sj.1 (BitVec.ofNat 8 i) j, j)

/-- `RC4_KSA(key)` (R201). -/
def rc4Ksa (key : List Byte) : List Byte :=
  ((List.range 256).foldl (rc4KsaStep key) ((List.range 256).map (BitVec.ofNat 8), 0)).1

/-- The PRGA state: `S`, `i`, `j` (R200). -/
structure Rc4State where
  S : List Byte
  i : Byte
  j : Byte
  deriving DecidableEq, Repr

/-- `RC4_PRGA_step` (R202): the state after it. -/
def rc4Step (t : Rc4State) : Rc4State :=
  let i := t.i + 1
  let j := t.j + rc4At t.S i
  ⟨rc4Swap t.S i j, i, j⟩

/-- The byte a state emits: `S[(S[i] + S[j]) mod 256]`, the values after the swap (R202). -/
def rc4Out (t : Rc4State) : Byte := rc4At t.S (rc4At t.S t.i + rc4At t.S t.j)

/-- Output XORed with input byte by byte, from a PRGA state on (R203). -/
def rc4XorFrom : Rc4State → List Byte → List Byte
  | _, [] => []
  | t, b :: m => (b ^^^ rc4Out (rc4Step t)) :: rc4XorFrom (rc4Step t) m

/-- `RC4_XOR(input, key)` (R203). -/
def rc4Xor (m key : List Byte) : List Byte := rc4XorFrom ⟨rc4Ksa key, 0, 0⟩ m

/-- `RC4.KSA` (R204): the permutation `S[0 .. 255]`. -/
def execRc4Ksa (p : Param) (s : State) : Host.Outcome State Fault Refusal :=
  runCommand (operandsRc4Ksa p s) (fun x => rc4Ksa x.key) s

/-- `RC4.XOR` (R205). -/
def execRc4Xor (p : Param) (s : State) : Host.Outcome State Fault Refusal :=
  runCommand (operandsRc4Xor p s) (fun x => rc4Xor x.src x.key) s

end Sys2Proof.Machine
end

