-- ==== Sys2Proof/Machine/Salsa.lean ====
section
/-! DEFINITION. The Salsa engine and its four commands (43_chacha_salsa.md R177 to R182, R191 to R194). -/

namespace Sys2Proof.Machine

/-- `SalsaQR` (R177), `y0 .. y3` being the four words in order. -/
def salsaQr (q : Quad) : Quad :=
  let z1 := q.b ^^^ (q.a + q.d).rotateLeft 7
  let z2 := q.c ^^^ (z1 + q.a).rotateLeft 9
  let z3 := q.d ^^^ (z2 + z1).rotateLeft 13
  let z0 := q.a ^^^ (z3 + z2).rotateLeft 18
  ⟨z0, z1, z2, z3⟩

/-- `ColumnRound`, `RowRound` (R178). -/
def salsaColumnRound (x : List Word) : List Word :=
  x |> quarterAt salsaQr 0 4 8 12 |> quarterAt salsaQr 5 9 13 1
    |> quarterAt salsaQr 10 14 2 6 |> quarterAt salsaQr 15 3 7 11
def salsaRowRound (x : List Word) : List Word :=
  x |> quarterAt salsaQr 0 1 2 3 |> quarterAt salsaQr 5 6 7 4
    |> quarterAt salsaQr 10 11 8 9 |> quarterAt salsaQr 15 12 13 14

/-- `SalsaCore(in, R)`: rounds and feed-forward (R179, R180). -/
def salsaCore (rounds : Nat) (x : List Word) : List Word :=
  List.zipWith (· + ·) (alternate salsaColumnRound salsaRowRound rounds x) x

/-- The seeded state (R181). -/
def salsaSeed (key nonce : List Byte) (ctr : DWord) : List Word :=
  let c := streamConstants key.length
  let k := streamKeyWords key
  let n := wordsLE 2 nonce
  [ c.getD 0 0,
    k.getD 0 0, k.getD 1 0, k.getD 2 0, k.getD 3 0,
    c.getD 1 0,
    n.getD 0 0, n.getD 1 0, ctr.extractLsb' 0 32, ctr.extractLsb' 32 32,
    c.getD 2 0,
    k.getD 4 0, k.getD 5 0, k.getD 6 0, k.getD 7 0,
    c.getD 3 0 ]

/-- `SalsaBlock(key, nonce, ctr, R)` (R182). -/
def salsaBlock (rounds : Nat) (key nonce : List Byte) (ctr : DWord) : List Byte :=
  bytesLE (salsaCore rounds (salsaSeed key nonce ctr))

/-- `SALSA.QR` (R191). -/
def execSalsaQr (p : Param) (s : State) : Host.Outcome State Fault Refusal :=
  runCommand (operandsQr p s) (fun x => quadBytes (salsaQr (quadOfBytes x.src))) s

/-- `SALSA.CORE` (R192). -/
def execSalsaCore (p : Param) (s : State) : Host.Outcome State Fault Refusal :=
  runCommand (operandsCore p s) (fun x => bytesLE (salsaCore (roundCount p) (wordsLE 16 x.src))) s

/-- `SALSA20.BLOCK` (R193). -/
def execSalsa20Block (p : Param) (s : State) : Host.Outcome State Fault Refusal :=
  runCommand (operandsBlock p s) (fun x => salsaBlock (roundCount p) x.key x.iv s.ctr) s

/-- `SALSA20.XOR` (R194). -/
def execSalsa20Xor (p : Param) (s : State) : Host.Outcome State Fault Refusal :=
  runCommand (operandsStreamXor p s) (fun x => streamXor (salsaBlock (roundCount p) x.key x.iv) s.ctr x.src) s

end Sys2Proof.Machine
end

