-- ==== Sys2Proof/Machine/Sha1.lean ====
section
/-! DEFINITION. The SHA-1 engine and its two commands (46_hashes.md R230 to R236, R252, R253). -/

namespace Sys2Proof.Machine

/-- The initial chaining value (R230). -/
def sha1Iv : List Word := [0x67452301, 0xefcdab89, 0x98badcfe, 0x10325476, 0xc3d2e1f0]

/-- One more word of the schedule, the words so far last first: `W[i-3]` is entry 2, `W[i-16]` entry 15 (R231). -/
def sha1Expand (W : List Word) (_ : Nat) : List Word :=
  (W.getD 2 0 ^^^ W.getD 7 0 ^^^ W.getD 13 0 ^^^ W.getD 15 0).rotateLeft 1 :: W

/-- The schedule `W[0..79]` (R231). -/
def sha1Schedule (block : List Byte) : List Word :=
  ((List.range 64).foldl sha1Expand (wordsBE 16 block).reverse).reverse

/-- The function and the constant of round `i` (R232). -/
def sha1F (i : Nat) (b c d : Word) : Word :=
  if i < 20 then (b &&& c) ||| (~~~b &&& d)
  else if i < 40 then b ^^^ c ^^^ d
  else if i < 60 then (b &&& c) ||| (b &&& d) ||| (c &&& d)
  else b ^^^ c ^^^ d
def sha1K (i : Nat) : Word :=
  if i < 20 then 0x5a827999 else if i < 40 then 0x6ed9eba1 else if i < 60 then 0x8f1bbcdc else 0xca62c1d6

/-- The five working variables. -/
structure Sha1Vars where
  a : Word
  b : Word
  c : Word
  d : Word
  e : Word
  deriving DecidableEq, Repr

/-- `SHA1Round(i, a, b, c, d, e, W)` (R233). -/
def sha1Round (W : List Word) (v : Sha1Vars) (i : Nat) : Sha1Vars :=
  let t := v.a.rotateLeft 5 + sha1F i v.b v.c v.d + v.e + sha1K i + W.getD i 0
  ⟨t, v.a, v.b.rotateLeft 30, v.c, v.d⟩

/-- `SHA1Compress(h, block)` (R234). -/
def sha1Compress (h : List Word) (block : List Byte) : List Word :=
  let v := (List.range 80).foldl (sha1Round (sha1Schedule block))
    ⟨h.getD 0 0, h.getD 1 0, h.getD 2 0, h.getD 3 0, h.getD 4 0⟩
  addToChaining h [v.a, v.b, v.c, v.d, v.e]

/-- `sha1(message)`, big-endian throughout (R235, R236). -/
def sha1 (m : List Byte) : List Byte := bytesBE (hashWords sha1Compress sha1Iv (hashPad toBE64 m))

/-- `SHA1.COMPRESS` (R252). -/
def execSha1Compress (p : Param) (s : State) : Host.Outcome State Fault Refusal :=
  runCommand (operandsCompress 20 p s) (fun x => bytesBE (sha1Compress (wordsBE 5 x.iv) x.src)) s

/-- `SHA1.HASH` (R253). -/
def execSha1Hash (p : Param) (s : State) : Host.Outcome State Fault Refusal :=
  runCommand (operandsHash 20 p s) (fun x => sha1 x.src) s

end Sys2Proof.Machine
end

