-- ==== Sys2Proof/Machine/Sha256.lean ====
section
/-! DEFINITION. The SHA-256 engine and its two commands (46_hashes.md R240 to R248, R254, R255). -/

namespace Sys2Proof.Machine

/-- The initial chaining value (R240). -/
def sha256Iv : List Word :=
  [ 0x6a09e667, 0xbb67ae85, 0x3c6ef372, 0xa54ff53a,
    0x510e527f, 0x9b05688c, 0x1f83d9ab, 0x5be0cd19 ]

/-- The round constants in the rows of four that R241 prints: entry `r`, `c` is `K[4r + c]`. -/
def sha256KRows : List (List Word) :=
  [ [0x428a2f98, 0x71374491, 0xb5c0fbcf, 0xe9b5dba5],
    [0x3956c25b, 0x59f111f1, 0x923f82a4, 0xab1c5ed5],
    [0xd807aa98, 0x12835b01, 0x243185be, 0x550c7dc3],
    [0x72be5d74, 0x80deb1fe, 0x9bdc06a7, 0xc19bf174] ] ++
  [ [0xe49b69c1, 0xefbe4786, 0x0fc19dc6, 0x240ca1cc],
    [0x2de92c6f, 0x4a7484aa, 0x5cb0a9dc, 0x76f988da],
    [0x983e5152, 0xa831c66d, 0xb00327c8, 0xbf597fc7],
    [0xc6e00bf3, 0xd5a79147, 0x06ca6351, 0x14292967] ] ++
  [ [0x27b70a85, 0x2e1b2138, 0x4d2c6dfc, 0x53380d13],
    [0x650a7354, 0x766a0abb, 0x81c2c92e, 0x92722c85],
    [0xa2bfe8a1, 0xa81a664b, 0xc24b8b70, 0xc76c51a3],
    [0xd192e819, 0xd6990624, 0xf40e3585, 0x106aa070] ] ++
  [ [0x19a4c116, 0x1e376c08, 0x2748774c, 0x34b0bcb5],
    [0x391c0cb3, 0x4ed8aa4a, 0x5b9cca4f, 0x682e6ff3],
    [0x748f82ee, 0x78a5636f, 0x84c87814, 0x8cc70208],
    [0x90befffa, 0xa4506ceb, 0xbef9a3f7, 0xc67178f2] ]

/-- `K[0..63]` (R241). -/
def sha256K : List Word := sha256KRows.flatten

/-- `Ch` and `Maj` (R242). -/
def sha256Ch (x y z : Word) : Word := (x &&& y) ^^^ (~~~x &&& z)
def sha256Maj (x y z : Word) : Word := (x &&& y) ^^^ (x &&& z) ^^^ (y &&& z)

/-- Two rotations to the right and a third term, XORed: the shape that the four mixing functions of R242 share. -/
def sha256Mix (m n : Nat) (third : Word → Word) (x : Word) : Word := x.rotateRight m ^^^ x.rotateRight n ^^^ third x

/-- Σ0, Σ1, σ0, σ1 (R242): the last term is a rotation in the first two and a shift in the others. -/
def sha256BigSigma0 : Word → Word := sha256Mix 2 13 (BitVec.rotateRight · 22)
def sha256BigSigma1 : Word → Word := sha256Mix 6 11 (BitVec.rotateRight · 25)
def sha256SmallSigma0 : Word → Word := sha256Mix 7 18 (· >>> 3)
def sha256SmallSigma1 : Word → Word := sha256Mix 17 19 (· >>> 10)

/-- One more word of the schedule, the words so far last first: `W[i-2]` is entry 1, `W[i-16]` entry 15 (R243). -/
def sha256Expand (W : List Word) (_ : Nat) : List Word :=
  (sha256SmallSigma1 (W.getD 1 0) + W.getD 6 0 + sha256SmallSigma0 (W.getD 14 0) + W.getD 15 0) :: W

/-- The schedule `W[0..63]` (R243, R247). -/
def sha256Schedule (block : List Byte) : List Word :=
  ((List.range 48).foldl sha256Expand (wordsBE 16 block).reverse).reverse

/-- The eight working variables, as R244 names them. -/
structure Sha256Vars where
  (a b c d e f g h : Word)
  deriving DecidableEq, Repr

/-- The working variables of a chaining value, and the words of working variables, `a` first (R245). -/
def sha256Open (H : List Word) : Sha256Vars :=
  { a := H.getD 0 0, b := H.getD 1 0, c := H.getD 2 0, d := H.getD 3 0,
    e := H.getD 4 0, f := H.getD 5 0, g := H.getD 6 0, h := H.getD 7 0 }
def Sha256Vars.words (v : Sha256Vars) : List Word := [v.a, v.b, v.c, v.d, v.e, v.f, v.g, v.h]

/-- `SHA256Round(i, a, .., h, W)` (R244). -/
def sha256Round (W : List Word) (v : Sha256Vars) (i : Nat) : Sha256Vars :=
  let t1 := v.h + sha256BigSigma1 v.e + sha256Ch v.e v.f v.g + sha256K.getD i 0 + W.getD i 0
  let t2 := sha256BigSigma0 v.a + sha256Maj v.a v.b v.c
  ⟨t1 + t2, v.a, v.b, v.c, v.d + t1, v.e, v.f, v.g⟩

/-- `SHA256Compress(H, block)`: 64 rounds, then the chaining value is added (R245). -/
def sha256Compress (H : List Word) (block : List Byte) : List Word :=
  let W := sha256Schedule block
  addToChaining H ((List.range 64).foldl (sha256Round W) (sha256Open H)).words

/-- `sha256(message)`, big-endian throughout (R246, R248). -/
def sha256 (m : List Byte) : List Byte := bytesBE (hashWords sha256Compress sha256Iv (hashPad toBE64 m))

/-- `SHA256.COMPRESS` (R254). -/
def execSha256Compress (p : Param) (s : State) : Host.Outcome State Fault Refusal :=
  runCommand (operandsCompress 32 p s) (fun x => bytesBE (sha256Compress (wordsBE 8 x.iv) x.src)) s

/-- `SHA256.HASH` (R255). -/
def execSha256Hash (p : Param) (s : State) : Host.Outcome State Fault Refusal :=
  runCommand (operandsHash 32 p s) (fun x => sha256 x.src) s

end Sys2Proof.Machine
end

