-- ==== Sys2Proof/Machine/System.lean ====
section
/-! DEFINITION. The system commands `NOP` and `CLRSTAT` (49_system.md R280, R281). -/

namespace Sys2Proof.Machine

/-- `NOP` (R280): no memory access; `STATUS` as every successful command. -/
def execNop (p : Param) (s : State) : Host.Outcome State Fault Refusal :=
  checked (operandsNop p s) s State.succeed

/-- `CLRSTAT` (R281): no memory access; `STATUS` = 0. -/
def execClrstat (p : Param) (s : State) : Host.Outcome State Fault Refusal :=
  checked (operandsClrstat p s) s State.clearStatus

end Sys2Proof.Machine
end

