-- ==== Sys2Proof/Machine/Trivium.lean ====
section
/-! DEFINITION. The Trivium engine and `TRIVIUM.XOR` (45_trivium.md R210 to R217). -/

namespace Sys2Proof.Machine

/-- The 288 bits `s1 .. s288` in three shift registers (R210): A is `s1 .. s93`, B is `s94 .. s177`, C is `s178 .. s288`. The first
bit of a register stands at bit 0. -/
structure Trivium where
  a : BitVec 93
  b : BitVec 84
  c : BitVec 111
  deriving DecidableEq, Repr

/-- Bit `sk`, `k` from 1 to 288 (R210). -/
def triviumBit (t : Trivium) (k : Nat) : Bool :=
  if k ≤ 93 then t.a.getLsbD (k - 1) else if k ≤ 177 then t.b.getLsbD (k - 94) else t.c.getLsbD (k - 178)

/-- A register after one shift: the new bit enters at the first position and the last bit is lost (R212). -/
def shiftIn {w : Nat} (r : BitVec w) (f : Bool) : BitVec w := (r <<< 1) ||| (BitVec.ofBool f).setWidth w

/-- `TriviumLoad(key, iv)` (R211). Key bit `K(8j + k + 1)` is bit `k` of byte `j` (R215), so the ten bytes are read with the
first one least significant. -/
def triviumLoad (key iv : List Byte) : Trivium where
  a := BitVec.ofNat 93 (leNat (key.take 10))
  b := BitVec.ofNat 84 (leNat (iv.take 10))
  c := 0b111#111 <<< 108

/-- The keystream bit a state emits (R212). -/
def triviumOut (t : Trivium) : Bool :=
  let s := triviumBit t
  (s 66 ^^ s 93) ^^ (s 162 ^^ s 177) ^^ (s 243 ^^ s 288)

/-- `TriviumClock` (R212): the state after it; all right-hand sides use the state before. -/
def triviumClock (t : Trivium) : Trivium :=
  let s := triviumBit t
  let t1 := s 66 ^^ s 93
  let t2 := s 162 ^^ s 177
  let t3 := s 243 ^^ s 288
  let f1 := t1 ^^ (s 91 && s 92) ^^ s 171
  let f2 := t2 ^^ (s 175 && s 176) ^^ s 264
  let f3 := t3 ^^ (s 286 && s 287) ^^ s 69
  ⟨shiftIn t.a f3, shiftIn t.b f1, shiftIn t.c f2⟩

/-- `n` clocks. -/
def triviumClocks : Nat → Trivium → Trivium
  | 0, t => t
  | n + 1, t => triviumClocks n (triviumClock t)

/-- The mandatory warm-up of 4 x 288 clocks (R213). -/
def triviumInit (key iv : List Byte) : Trivium := triviumClocks 1152 (triviumLoad key iv)

/-- The keystream byte made of the next 8 output bits, the first one bit 0 (R214). -/
def triviumByte (t : Trivium) : Byte := ofBits 8 fun k => triviumOut (triviumClocks k t)

/-- Keystream bytes XORed with the input, from a state on (R216). -/
def triviumXorFrom : Trivium → List Byte → List Byte
  | _, [] => []
  | t, b :: m => (b ^^^ triviumByte t) :: triviumXorFrom (triviumClocks 8 t) m

/-- `TriviumXor(input, key, iv)` (R216). -/
def triviumXor (m key iv : List Byte) : List Byte := triviumXorFrom (triviumInit key iv) m

/-- `TRIVIUM.XOR` (R217). -/
def execTriviumXor (p : Param) (s : State) : Host.Outcome State Fault Refusal :=
  runCommand (operandsTriviumXor p s) (fun x => triviumXor x.src x.key x.iv) s

end Sys2Proof.Machine
end

