-- ==== Sys2Proof/Machine/Dispatch.lean ====
section
/-! DEFINITION. exec: one arm for each command of 30_encoding.md R82, each one call of the command's meaning. -/

namespace Sys2Proof.Machine

def exec (i : Instr) (s : State) : Host.Outcome State Fault Refusal :=
  match i with
  | .nop p => Sys2Proof.Machine.execNop p s
  | .clrstat p => Sys2Proof.Machine.execClrstat p s
  | .gfMul p => Sys2Proof.Machine.execGfMul p s
  | .aes128Keyexp p => Sys2Proof.Machine.execAes128Keyexp p s
  | .aesRnd p => Sys2Proof.Machine.execAesRnd p s
  | .aesRndlast p => Sys2Proof.Machine.execAesRndlast p s
  | .aes128Enc p => Sys2Proof.Machine.execAes128Enc p s
  | .presentKeysched p => Sys2Proof.Machine.execPresentKeysched p s
  | .presentEnc p => Sys2Proof.Machine.execPresentEnc p s
  | .presentDec p => Sys2Proof.Machine.execPresentDec p s
  | .chachaQr p => Sys2Proof.Machine.execChachaQr p s
  | .chachaCore p => Sys2Proof.Machine.execChachaCore p s
  | .chacha20Block p => Sys2Proof.Machine.execChacha20Block p s
  | .chacha20Xor p => Sys2Proof.Machine.execChacha20Xor p s
  | .salsaQr p => Sys2Proof.Machine.execSalsaQr p s
  | .salsaCore p => Sys2Proof.Machine.execSalsaCore p s
  | .salsa20Block p => Sys2Proof.Machine.execSalsa20Block p s
  | .salsa20Xor p => Sys2Proof.Machine.execSalsa20Xor p s
  | .rc4Ksa p => Sys2Proof.Machine.execRc4Ksa p s
  | .rc4Xor p => Sys2Proof.Machine.execRc4Xor p s
  | .triviumXor p => Sys2Proof.Machine.execTriviumXor p s
  | .md5Compress p => Sys2Proof.Machine.execMd5Compress p s
  | .md5Hash p => Sys2Proof.Machine.execMd5Hash p s
  | .sha1Compress p => Sys2Proof.Machine.execSha1Compress p s
  | .sha1Hash p => Sys2Proof.Machine.execSha1Hash p s
  | .sha256Compress p => Sys2Proof.Machine.execSha256Compress p s
  | .sha256Hash p => Sys2Proof.Machine.execSha256Hash p s
  | .keccakF1600 p => Sys2Proof.Machine.execKeccakF1600 p s
  | .sha3Hash p => Sys2Proof.Machine.execSha3Hash p s

end Sys2Proof.Machine
end

