-- ==== Sys2Proof/Machine/HostPort.lean ====
section
/-! DEFINITION. The host's transactions and reset, each one step of the machine (20_memory.md R51, 30_encoding.md R84, R85,
70_reset_and_hazards.md R340, R341). -/

namespace Sys2Proof.Machine

/-- `Issue(w)`, the effect of writing `w` to `CMD` (R84): the command the word names, or `IllegalCommand` (R85, R302). -/
def issue (w : Word) (s : State) : Host.Outcome State Fault Refusal :=
  match decode w with
  | .ok i => exec i s
  | .error _ => .next (s.raise .illegalCommand)

/-- `RegWrite(off, v)` (R51). -/
def hostRegWrite (off : Nat) (v : Word) (s : State) : Host.Outcome State Fault Refusal :=
  match regAt off with
  | none => .refused (.noSuchRegister off)
  | some .cmd => issue v s
  | some r => .next (s.writeReg r v)

/-- `RegRead(off)` (R51): the register's value, and no side effect. -/
def hostRegRead (off : Nat) (s : State) : Host.Outcome State Fault Refusal :=
  match regAt off with
  | none => .refused (.noSuchRegister off)
  | some r => .next (s.setPort (.word (s.readReg r)))

/-- The host's `MemWrite(addr, n, v)` (R51), refused unless `addr + n <= MEM_SIZE`. -/
def hostMemWrite (addr : Nat) (v : List Byte) (s : State) : Host.Outcome State Fault Refusal :=
  if addr + v.length ≤ s.memSize then .next (s.setMem (s.mem.writeBytes addr v))
  else .refused (.hostRangeOutsideMem addr v.length)

/-- The host's `MemRead(addr, n)` (R51), refused unless `addr + n <= MEM_SIZE`; no side effect. -/
def hostMemRead (addr n : Nat) (s : State) : Host.Outcome State Fault Refusal :=
  if addr + n ≤ s.memSize then .next (s.setPort (.bytes (s.mem.readBytes addr n)))
  else .refused (.hostRangeOutsideMem addr n)

/-- The reset action (R340, R341): every register 0, and `MEM` with the content the event brings. `MEM_SIZE` and the events
still to come are not the block's, and stay. -/
def hostReset (memInit : List Host.Cell) (s : State) : State :=
  State.launch s.memSize (Memory.ofCells s.memSize memInit) s.host

/-- One event from the outside. -/
def perform (e : HostEvent) (s : State) : Host.Outcome State Fault Refusal :=
  match e with
  | .regWrite off v => hostRegWrite off v s
  | .regRead off => hostRegRead off s
  | .memWrite addr v => hostMemWrite addr v s
  | .memRead addr n => hostMemRead addr n s
  | .reset memInit => .next (hostReset memInit s)

/-- The state in which the next event is performed: it is taken from the list, and nothing has been returned yet. -/
def State.takeEvent (s : State) (rest : List HostEvent) : State := (s.setHost rest).setPort .nothing

/-- The event whose step issues a command word. -/
def commandEvent (w : Word) : HostEvent := .regWrite 0x00 w

end Sys2Proof.Machine
end

