-- ==== Sys2Proof/Machine/Step.lean ====
section
/-! DEFINITION. One step of the machine: the next event from the outside, run to completion (00_scope.md R4, 20_memory.md R51,
R57, R63). There is no program counter and no fetch (10_state.md R33). -/

namespace Sys2Proof.Machine

/-- One step. With no event waiting nothing happens: "The engine never acts on its own" (R4). -/
def step (s : State) : Host.Outcome State Fault Refusal :=
  match s.host with
  | [] => .next s
  | e :: rest => perform e (s.takeEvent rest)

/-- `s` with the write of a command word put before the events that wait, so that the very next step issues it. -/
def State.withFetchWord (s : State) (nbits w : Nat) : State :=
  s.setHost (commandEvent (BitVec.ofNat 32 (w % 2 ^ nbits)) :: s.host)

end Sys2Proof.Machine
end

