-- ==== Sys2Proof/Safety.lean ====
section
/-! DEFINITION. The words that claims are stated in: the invariant of the machine, what a completed command leaves, and the
operand table of 30_encoding.md R88 written out once more as data, apart from the checks of Machine/Operands.lean, so that the
two can be compared. -/

namespace Sys2Proof.Machine

/-- The values `STATUS` can hold: those of R84, R281 and R304 (`ERR` at most 5, bits 3:1 and 31:9 zero, R23, R300). -/
def legalStatus : List Word := [0x000, 0x001, 0x101, 0x111, 0x121, 0x131, 0x141, 0x151]

/-- The invariant of the machine: a legal `STATUS`, memory in canonical form and inside `MEM`, a legal `MEM_SIZE` (R8, R23, R34). -/
structure State.Inv (s : State) : Prop where
  status : s.status ∈ legalStatus
  memWf : s.mem.wf
  memInside : ∀ c ∈ s.mem, c.1 < s.memSize
  sizeLow : 1 ≤ s.memSize
  sizeHigh : s.memSize ≤ Config.maxMemSize

/-- The `n` bytes at the address a pointer register holds. -/
def State.bytesAt (s : State) (p : Word) (n : Nat) : List Byte := (List.range n).map fun i => s.mem.read (p.toNat + i)

/-- The range `(p, n)` is in range (R62). -/
abbrev State.inMem (s : State) (p : Word) (n : Nat) : Prop := n = 0 ∨ p.toNat + n ≤ s.memSize

/-- The ranges `(p, n)` and `(q, m)` have no byte in common. -/
abbrev Apart (p : Word) (n : Nat) (q : Word) (m : Nat) : Prop := p.toNat + n ≤ q.toNat ∨ q.toNat + m ≤ p.toNat

/-- The eight operand registers agree (R22). -/
def SameRegisters (s t : State) : Prop :=
  t.src = s.src ∧ t.dst = s.dst ∧ t.len = s.len ∧ t.keyp = s.keyp ∧
    t.keylen = s.keylen ∧ t.ivp = s.ivp ∧ t.ctrlo = s.ctrlo ∧ t.ctrhi = s.ctrhi

/-- What is no state of the block agrees: `MEM_SIZE`, the events to come, what the host's last transaction returned. -/
def SameSurroundings (s t : State) : Prop := t.memSize = s.memSize ∧ t.host = s.host ∧ t.port = s.port

/-- `t` is what a successful command leaves of `s` when it writes the `n` bytes `out` at `p`: `DONE` = 1, `ERR` = 0, `STICKY`
kept, every register and every byte outside `(p, n)` unchanged (R22, R60, R84). -/
structure Completed (s t : State) (p : Word) (n : Nat) (out : List Byte) : Prop where
  status : t.status = (s.status &&& 0x100) ||| 1
  registers : SameRegisters s t
  surroundings : SameSurroundings s t
  size : out.length = n
  written : ∀ i, i < n → t.mem.read (p.toNat + i) = out.getD i 0
  frame : ∀ a, a < p.toNat ∨ p.toNat + n ≤ a → t.mem.read a = s.mem.read a

/-- The 29 operation codes of R82. -/
def assignedOps : List (BitVec 8) :=
  [ 0x00, 0x01, 0x08, 0x10, 0x11, 0x12, 0x13, 0x20, 0x21, 0x22, 0x30, 0x31, 0x32, 0x33, 0x38, 0x39, 0x3A, 0x3B,
    0x40, 0x41, 0x48, 0x50, 0x51, 0x54, 0x55, 0x58, 0x59, 0x60, 0x61 ]

/-- A row of R88: the legal `KEYLEN` and the required `LEN` (none where the register is not read), the ranges read and written,
and whether `CTR` is read. -/
structure TableRow where
  keyLens : Option (List Nat) := none
  len : Option Nat := none
  reads : List (Reg × Nat) := []
  writes : List (Reg × Nat) := []
  ctr : Bool := false
  /-- The registers whose value is a length the ranges use. -/
  lengths : List Reg := []

/-- The operand table of R88; `k` and `n` are the values of `KEYLEN` and `LEN`, which size some of the ranges. -/
def tableRow (k n : Nat) : Instr → TableRow
  | .nop _ => {}
  | .clrstat _ => {}
  | .gfMul _ => { len := some 2, reads := [(.src, 2)], writes := [(.dst, 1)] }
  | .aes128Keyexp _ => { keyLens := some [16], reads := [(.keyp, 16)], writes := [(.dst, 176)] }
  | .aesRnd _ => { keyLens := some [16], len := some 16, reads := [(.keyp, 16), (.src, 16)], writes := [(.dst, 16)] }
  | .aesRndlast _ => { keyLens := some [16], len := some 16, reads := [(.keyp, 16), (.src, 16)], writes := [(.dst, 16)] }
  | .aes128Enc _ => { keyLens := some [16], len := some 16, reads := [(.keyp, 16), (.src, 16)], writes := [(.dst, 16)] }
  | .presentKeysched p =>
    { keyLens := some (if p = 0 then [10] else [16]), reads := [(.keyp, k)], writes := [(.dst, 256)] }
  | .presentEnc p =>
    { keyLens := some (if p = 0 then [10] else [16]), len := some 8, reads := [(.keyp, k), (.src, 8)], writes := [(.dst, 8)] }
  | .presentDec p =>
    { keyLens := some (if p = 0 then [10] else [16]), len := some 8, reads := [(.keyp, k), (.src, 8)], writes := [(.dst, 8)] }
  | .chachaQr _ => { len := some 16, reads := [(.src, 16)], writes := [(.dst, 16)] }
  | .chachaCore _ => { len := some 64, reads := [(.src, 64)], writes := [(.dst, 64)] }
  | .chacha20Block _ =>
    { keyLens := some [16, 32], reads := [(.keyp, k), (.ivp, 8)], writes := [(.dst, 64)], ctr := true }
  | .chacha20Xor _ =>
    { keyLens := some [16, 32], reads := [(.keyp, k), (.ivp, 8), (.src, n)], writes := [(.dst, n)], ctr := true,
      lengths := [.len] }
  | .salsaQr _ => { len := some 16, reads := [(.src, 16)], writes := [(.dst, 16)] }
  | .salsaCore _ => { len := some 64, reads := [(.src, 64)], writes := [(.dst, 64)] }
  | .salsa20Block _ =>
    { keyLens := some [16, 32], reads := [(.keyp, k), (.ivp, 8)], writes := [(.dst, 64)], ctr := true }
  | .salsa20Xor _ =>
    { keyLens := some [16, 32], reads := [(.keyp, k), (.ivp, 8), (.src, n)], writes := [(.dst, n)], ctr := true,
      lengths := [.len] }
  | .rc4Ksa _ => { keyLens := some (List.range' 1 256), reads := [(.keyp, k)], writes := [(.dst, 256)] }
  | .rc4Xor _ =>
    { keyLens := some (List.range' 1 256), reads := [(.keyp, k), (.src, n)], writes := [(.dst, n)], lengths := [.len] }
  | .triviumXor _ =>
    { keyLens := some [10], reads := [(.keyp, 10), (.ivp, 10), (.src, n)], writes := [(.dst, n)], lengths := [.len] }
  | .md5Compress _ => { len := some 64, reads := [(.ivp, 16), (.src, 64)], writes := [(.dst, 16)] }
  | .md5Hash _ => { reads := [(.src, n)], writes := [(.dst, 16)], lengths := [.len] }
  | .sha1Compress _ => { len := some 64, reads := [(.ivp, 20), (.src, 64)], writes := [(.dst, 20)] }
  | .sha1Hash _ => { reads := [(.src, n)], writes := [(.dst, 20)], lengths := [.len] }
  | .sha256Compress _ => { len := some 64, reads := [(.ivp, 32), (.src, 64)], writes := [(.dst, 32)] }
  | .sha256Hash _ => { reads := [(.src, n)], writes := [(.dst, 32)], lengths := [.len] }
  | .keccakF1600 _ => { len := some 200, reads := [(.src, 200)], writes := [(.dst, 200)] }
  | .sha3Hash _ => { reads := [(.src, n)], writes := [(.dst, 32)], lengths := [.len] }

/-- The row of a command in a state. -/
def State.row (s : State) (i : Instr) : TableRow := tableRow s.keylen.toNat s.len.toNat i

/-- The registers a command reads, by its row (R24, R88). -/
def usedRegs (i : Instr) : List Reg :=
  let r := tableRow 0 0 i
  (r.reads ++ r.writes).map Prod.fst ++ r.lengths ++
    (if r.keyLens.isSome then [.keylen] else []) ++ (if r.len.isSome then [.len] else []) ++
    (if r.ctr then [.ctrlo, .ctrhi] else [])

/-- The first failing check of a decoded command, by its row (R84, R305). -/
def tableError (i : Instr) (s : State) : Option ErrorCode :=
  let r := s.row i
  if i.param ∉ i.legalParams then some .unsupportedParameter
  else if r.keyLens.any fun ks => s.keylen.toNat ∉ ks then some .invalidKeyLength
  else if r.len.any fun n => s.len.toNat ≠ n then some .invalidInputLength
  else if (r.reads ++ r.writes).any fun pn => 0 < pn.2 ∧ s.memSize < (s.readReg pn.1).toNat + pn.2 then some .accessFault
  else none

/-- The first failing check of a command word (R84, R85, R302, R305). -/
def wordError (w : Word) (s : State) : Option ErrorCode :=
  if w.extractLsb' 12 20 ≠ 0 ∨ w.extractLsb' 0 8 ∉ assignedOps then some .illegalCommand
  else match decode w with
    | .ok i => tableError i s
    | .error _ => none

/-- The `STATUS` values an error leaves, as R304 lists them. -/
def errorStatus : ErrorCode → Word
  | .invalidKeyLength => 0x00000111
  | .invalidInputLength => 0x00000121
  | .unsupportedParameter => 0x00000131
  | .illegalCommand => 0x00000141
  | .accessFault => 0x00000151

end Sys2Proof.Machine
end

