-- ==== Sys2Proof/Certificates/Slice0/Obligations.lean ====
section
/-! DEFINITION. The statements for the provers (OBLIGATIONS.json). Each docstring names the rule of spec/ it formalises. -/

open Sys2Proof Sys2Proof.Machine

/-- Twelve words written out bit by bit from R80 and R82, one of every family, and two illegal ones (R85). -/
def Obligations.DecodesSampleWords : Prop :=
  decode 0b00000000000000000000_0000_00000000#32 = .ok (.nop 0) ∧
  decode 0b00000000000000000000_0000_00001000#32 = .ok (.gfMul 0) ∧
  decode 0b00000000000000000000_0001_00010011#32 = .ok (.aes128Enc 1) ∧
  decode 0b00000000000000000000_0001_00100001#32 = .ok (.presentEnc 1) ∧
  decode 0b00000000000000000000_0010_00110011#32 = .ok (.chacha20Xor 2) ∧
  decode 0b00000000000000000000_0010_00111010#32 = .ok (.salsa20Block 2) ∧
  decode 0b00000000000000000000_0000_01000001#32 = .ok (.rc4Xor 0) ∧
  decode 0b00000000000000000000_0000_01001000#32 = .ok (.triviumXor 0) ∧
  decode 0b00000000000000000000_0000_01010001#32 = .ok (.md5Hash 0) ∧
  decode 0b00000000000000000000_0000_01010100#32 = .ok (.sha1Compress 0) ∧
  decode 0b00000000000000000000_0000_01011001#32 = .ok (.sha256Hash 0) ∧
  decode 0b00000000000000000000_0000_01100001#32 = .ok (.sha3Hash 0) ∧
  decode 0b00000000000000000001_0000_00000000#32 = .error .reservedBitsNotZero ∧
  decode 0b00000000000000000000_0000_01010010#32 = .error .unassignedOp

/-- Decode and encode agree on all commands and all values of `PARAM` (R80, R82). -/
def Obligations.DecodeOfEncode : Prop :=
  ∀ i : Instr, decode (encode i) = .ok i

/-- Each command word has one meaning and each meaning one word (R80, R81). -/
def Obligations.EncodeOfDecode : Prop :=
  ∀ (w : Word) (i : Instr), decode w = .ok i → encode i = w

/-- R85. The step takes the event and returns nothing to the host; the rest of the state is the one before. -/
def Obligations.EveryWordHasADefinedEffect : Prop :=
  ∀ (s : State) (w : Word) (rest : List HostEvent), s.host = .regWrite 0x00 w :: rest →
    ((w.extractLsb' 12 20 ≠ 0 ∨ w.extractLsb' 0 8 ∉ assignedOps) →
      step s = .next { s with host := rest, port := .nothing, status := 0x141 }) ∧
    (∀ i, decode w = .ok i → i.wellFormed = false →
      step s = .next { s with host := rest, port := .nothing, status := 0x131 }) ∧
    (w.extractLsb' 12 20 = 0 → w.extractLsb' 0 8 ∈ assignedOps → ∃ i, decode w = .ok i) ∧
    ∃ t, step s = .next t

/-- R51 and R84: the step runs the decoded command. What the step adds around `exec` is the model's own (log entry 3): it takes the event and clears what was returned. -/
def Obligations.StepIssuesTheDecodedCommand : Prop :=
  ∀ (s : State) (w : Word) (rest : List HostEvent) (i : Instr),
    s.host = .regWrite 0x00 w :: rest → decode w = .ok i →
      step s = exec i { s with host := rest, port := .nothing }

/-- R21, R22, R23, R51. -/
def Obligations.HostRegisterWrites : Prop :=
  ∀ (s : State) (v : Word) (rest : List HostEvent),
    (s.host = .regWrite 0x04 v :: rest → step s = .next { s with host := rest, port := .nothing }) ∧
    (s.host = .regWrite 0x08 v :: rest → step s = .next { s with host := rest, port := .nothing, src := v }) ∧
    (s.host = .regWrite 0x0C v :: rest → step s = .next { s with host := rest, port := .nothing, dst := v }) ∧
    (s.host = .regWrite 0x10 v :: rest → step s = .next { s with host := rest, port := .nothing, len := v }) ∧
    (s.host = .regWrite 0x14 v :: rest → step s = .next { s with host := rest, port := .nothing, keyp := v }) ∧
    (s.host = .regWrite 0x18 v :: rest → step s = .next { s with host := rest, port := .nothing, keylen := v }) ∧
    (s.host = .regWrite 0x1C v :: rest → step s = .next { s with host := rest, port := .nothing, ivp := v }) ∧
    (s.host = .regWrite 0x20 v :: rest → step s = .next { s with host := rest, port := .nothing, ctrlo := v }) ∧
    (s.host = .regWrite 0x24 v :: rest → step s = .next { s with host := rest, port := .nothing, ctrhi := v })

/-- R21, R51. -/
def Obligations.HostRegisterReads : Prop :=
  ∀ (s : State) (rest : List HostEvent),
    (s.host = .regRead 0x00 :: rest → step s = .next { s with host := rest, port := .word 0 }) ∧
    (s.host = .regRead 0x04 :: rest → step s = .next { s with host := rest, port := .word s.status }) ∧
    (s.host = .regRead 0x08 :: rest → step s = .next { s with host := rest, port := .word s.src }) ∧
    (s.host = .regRead 0x0C :: rest → step s = .next { s with host := rest, port := .word s.dst }) ∧
    (s.host = .regRead 0x10 :: rest → step s = .next { s with host := rest, port := .word s.len }) ∧
    (s.host = .regRead 0x14 :: rest → step s = .next { s with host := rest, port := .word s.keyp }) ∧
    (s.host = .regRead 0x18 :: rest → step s = .next { s with host := rest, port := .word s.keylen }) ∧
    (s.host = .regRead 0x1C :: rest → step s = .next { s with host := rest, port := .word s.ivp }) ∧
    (s.host = .regRead 0x20 :: rest → step s = .next { s with host := rest, port := .word s.ctrlo }) ∧
    (s.host = .regRead 0x24 :: rest → step s = .next { s with host := rest, port := .word s.ctrhi })

/-- R51: the host's two memory transactions. -/
def Obligations.HostMemoryAccess : Prop :=
  ∀ (s : State) (addr : Nat) (rest : List HostEvent),
    (∀ v : List Byte, s.host = .memWrite addr v :: rest → addr + v.length ≤ s.memSize →
      ∃ t, step s = .next t ∧ t.status = s.status ∧ SameRegisters s t ∧
        t.memSize = s.memSize ∧ t.host = rest ∧ t.port = .nothing ∧
        (∀ i, i < v.length → t.mem.read (addr + i) = v.getD i 0) ∧
        ∀ a, a < addr ∨ addr + v.length ≤ a → t.mem.read a = s.mem.read a) ∧
    (∀ n : Nat, s.host = .memRead addr n :: rest → addr + n ≤ s.memSize →
      step s = .next { s with host := rest, port := .bytes ((List.range n).map fun i => s.mem.read (addr + i)) })

/-- R51: "the spec gives them no meaning and a model refuses them". The model's choices: an event outside the interface can be written and is refused by name (log entry 7, DESIGN CHOICE); an empty access above `MEM_SIZE` is refused too (log entry 5, DEDUCED). -/
def Obligations.TransactionsOutsideTheInterfaceAreRefused : Prop :=
  ∀ (s : State) (rest : List HostEvent),
    (∀ off v, s.host = .regWrite off v :: rest → off % 4 ≠ 0 ∨ 0x28 ≤ off → step s = .refused (.noSuchRegister off)) ∧
    (∀ off, s.host = .regRead off :: rest → off % 4 ≠ 0 ∨ 0x28 ≤ off → step s = .refused (.noSuchRegister off)) ∧
    (∀ addr v, s.host = .memWrite addr v :: rest → s.memSize < addr + v.length →
      step s = .refused (.hostRangeOutsideMem addr v.length)) ∧
    (∀ addr n, s.host = .memRead addr n :: rest → s.memSize < addr + n →
      step s = .refused (.hostRangeOutsideMem addr n))

/-- R51: the write of `CMD` "is the only transaction that changes `STATUS` or lets the engine touch `MEM`". -/
def Obligations.EachStateChangesOnlyByItsOwnTransaction : Prop :=
  ∀ s t : State, step s = .next t →
    (t.status ≠ s.status → (∃ w rest, s.host = .regWrite 0x00 w :: rest) ∨ ∃ init rest, s.host = .reset init :: rest) ∧
    (t.mem ≠ s.mem → (∃ w rest, s.host = .regWrite 0x00 w :: rest) ∨ (∃ a v rest, s.host = .memWrite a v :: rest) ∨
      ∃ init rest, s.host = .reset init :: rest) ∧
    (¬ SameRegisters s t → (∃ off v rest, s.host = .regWrite off v :: rest ∧ off ≠ 0x00 ∧ off ≠ 0x04) ∨
      ∃ init rest, s.host = .reset init :: rest) ∧
    t.memSize = s.memSize

/-- R38, R340, R341. That the content of `MEM` comes with the event is the model's choice (log entry 1): the spec leaves `MEM_INIT` open. -/
def Obligations.ResetActionClearsRegisters : Prop :=
  ∀ (s : State) (init : Memory) (rest : List HostEvent), s.host = .reset init :: rest →
    ∃ t, step s = .next t ∧ t.status = 0 ∧ t.src = 0 ∧ t.dst = 0 ∧ t.len = 0 ∧ t.keyp = 0 ∧ t.keylen = 0 ∧
      t.ivp = 0 ∧ t.ctrlo = 0 ∧ t.ctrhi = 0 ∧ t.memSize = s.memSize ∧ t.host = rest ∧
      (init.wf → (∀ c ∈ init, c.1 < s.memSize) → t.mem = init)

/-- R38 and R341, the registers. -/
def Obligations.ResetStateRegistersAreZero : Prop :=
  State.reset.status = 0 ∧ State.reset.src = 0 ∧ State.reset.dst = 0 ∧ State.reset.len = 0 ∧ State.reset.keyp = 0 ∧
    State.reset.keylen = 0 ∧ State.reset.ivp = 0 ∧ State.reset.ctrlo = 0 ∧ State.reset.ctrhi = 0 ∧ State.reset.ctr = 0

/-- The invariant of Safety.lean, over every event of the outside world and every command (R23, R34, R62, R300). -/
def Obligations.StepKeepsTheMachineInvariant : Prop :=
  ∀ s t : State, s.Inv → step s = .next t → t.Inv

/-- The start of the invariant. `MEM_SIZE` and the empty memory list of `State.reset` are the model's choices (log entries 1, 2). -/
def Obligations.ResetSatisfiesTheMachineInvariant : Prop :=
  State.reset.Inv

/-- R22: "No command ever writes any of these eight registers". -/
def Obligations.CommandsNeverWriteOperandRegisters : Prop :=
  ∀ (i : Instr) (s : State), ∃ t, exec i s = .next t ∧ SameRegisters s t ∧ SameSurroundings s t

/-- R305, with the `STATUS` values of R304, against the table of R88 as Safety.lean writes it. -/
def Obligations.FirstFailingCheckDecidesTheError : Prop :=
  ∀ (s : State) (w : Word) (rest : List HostEvent), s.host = .regWrite 0x00 w :: rest →
    (∀ e, wordError w s = some e →
      step s = .next { s with host := rest, port := .nothing, status := errorStatus e }) ∧
    (wordError w s = none → ∃ t, step s = .next t ∧
      t.status = if decode w = .ok (.clrstat 0) then 0 else (s.status &&& 0x100) ||| 1)

/-- R23 and R306, over all commands. -/
def Obligations.StatusFieldsOfACommand : Prop :=
  ∀ (i : Instr) (s : State), ∃ t, exec i s = .next t ∧
    (i ≠ .clrstat 0 → t.status.getLsbD 0 = true ∧ (s.status.getLsbD 8 = true → t.status.getLsbD 8 = true)) ∧
    (t.status.extractLsb' 4 4 ≠ 0 → t.status.getLsbD 8 = true ∧ (t.status.extractLsb' 4 4).toNat ≤ 5)

/-- The frame of memory, over all commands, by the `writes` column of R88; and R308: "the failing command has had no effect on memory". -/
def Obligations.CommandsStoreOnlyInTheirOutputRange : Prop :=
  ∀ (i : Instr) (s : State), ∃ t, exec i s = .next t ∧
    (∀ a, (∀ pn ∈ (s.row i).writes, a < (s.readReg pn.1).toNat ∨ (s.readReg pn.1).toNat + pn.2 ≤ a) →
      t.mem.read a = s.mem.read a) ∧
    (t.status.extractLsb' 4 4 ≠ 0 → t.mem = s.mem)

/-- R24, with the registers a command uses read off the table of R88 (Safety.lean, `usedRegs`). -/
def Obligations.UnusedRegistersDoNotMatter : Prop :=
  ∀ (i : Instr) (s s' : State), s.mem = s'.mem → s.memSize = s'.memSize → s.status = s'.status →
    (∀ r ∈ usedRegs i, s.readReg r = s'.readReg r) →
      ∃ t t', exec i s = .next t ∧ exec i s' = .next t' ∧ t.mem = t'.mem ∧ t.status = t'.status

/-- R280. -/
def Obligations.NopCompletes : Prop :=
  decode 0x00000000 = .ok (.nop 0) ∧
  ∀ s : State, exec (.nop 0) s = .next { s with status := (s.status &&& 0x100) ||| 1 } ∧
    ∀ p : Param, p ≠ 0 → exec (.nop p) s = .next { s with status := 0x131 }

/-- R281, with "the only command that leaves `DONE` = 0 and the only way, other than reset, to clear `STICKY`". -/
def Obligations.ClrstatCompletes : Prop :=
  decode 0x00000001 = .ok (.clrstat 0) ∧
  ∀ s : State, exec (.clrstat 0) s = .next { s with status := 0 } ∧
    (∀ p : Param, p ≠ 0 → exec (.clrstat p) s = .next { s with status := 0x131 }) ∧
    (∀ i, i ≠ .clrstat 0 → ∃ t, exec i s = .next t ∧ t.status.getLsbD 0 = true ∧
      (s.status.getLsbD 8 = true → t.status.getLsbD 8 = true)) ∧
    ∀ t, step s = .next t → s.status.getLsbD 8 = true → t.status.getLsbD 8 = false →
      (∃ rest, s.host = .regWrite 0x00 0x00000001 :: rest) ∨ ∃ init rest, s.host = .reset init :: rest

/-- R114. -/
def Obligations.GfMulCompletes : Prop :=
  ∀ s : State, s.len = 2 → s.inMem s.src 2 → s.inMem s.dst 1 →
    ∃ t, exec (.gfMul 0) s = .next t ∧
      Completed s t s.dst 1 [gfMul (s.mem.read s.src.toNat) (s.mem.read (s.src.toNat + 1))]

/-- R135. -/
def Obligations.Aes128KeyexpCompletes : Prop :=
  ∀ s : State, s.keylen = 16 → s.inMem s.keyp 16 → s.inMem s.dst 176 →
    ∃ t, exec (.aes128Keyexp 0) s = .next t ∧
      Completed s t s.dst 176 (keyExpansion (s.bytesAt s.keyp 16)).flatten

/-- R136, R137, R138. -/
def Obligations.AesRoundCommandsComplete : Prop :=
  ∀ s : State, s.keylen = 16 → s.len = 16 → s.inMem s.keyp 16 → s.inMem s.src 16 → s.inMem s.dst 16 →
    (∃ t, exec (.aesRnd 0) s = .next t ∧
      Completed s t s.dst 16 (aesRound (s.bytesAt s.src 16) (s.bytesAt s.keyp 16))) ∧
    (∃ t, exec (.aesRndlast 0) s = .next t ∧
      Completed s t s.dst 16 (aesFinalRound (s.bytesAt s.src 16) (s.bytesAt s.keyp 16))) ∧
    ∃ t, exec (.aes128Enc 0) s = .next t ∧
      Completed s t s.dst 16 (aesEncrypt (s.bytesAt s.src 16) (s.bytesAt s.keyp 16))

/-- R162, and the key schedule of R155 to R158 bit by bit. -/
def Obligations.PresentKeyschedCompletes : Prop :=
  (∀ (s : State) (p : Param), (p = 0 ∧ s.keylen = 10) ∨ (p = 1 ∧ s.keylen = 16) →
    s.inMem s.keyp s.keylen.toNat → s.inMem s.dst 256 →
    ∃ t, exec (.presentKeysched p) s = .next t ∧
      Completed s t s.dst 256 ((presentKeySchedule p (s.bytesAt s.keyp s.keylen.toNat)).flatMap toBE64)) ∧
  (∀ (K : BitVec 80) (i : BitVec 5),
    (∀ b, b < 76 → (presentUpdate80 K i).getLsbD b =
      (K.getLsbD ((b + 19) % 80) ^^ (decide (15 ≤ b) && i.getLsbD (b - 15)))) ∧
    (presentUpdate80 K i).extractLsb' 76 4 = presentSbox (K.extractLsb' 15 4)) ∧
  (∀ (K : BitVec 128) (i : BitVec 5),
    (∀ b, b < 120 → (presentUpdate128 K i).getLsbD b =
      (K.getLsbD ((b + 67) % 128) ^^ (decide (62 ≤ b) && i.getLsbD (b - 62)))) ∧
    (presentUpdate128 K i).extractLsb' 124 4 = presentSbox (K.extractLsb' 63 4) ∧
    (presentUpdate128 K i).extractLsb' 120 4 = presentSbox (K.extractLsb' 59 4)) ∧
  (∀ key : List Byte, key.length = 10 →
    let K := fun j => (List.range' 1 j).foldl (fun K i => presentUpdate80 K (BitVec.ofNat 5 i)) (presentLoad 80 key)
    (presentKeySchedule 0 key).length = 32 ∧
    (∀ j, j < 32 → (presentKeySchedule 0 key).getD j 0 = (K j).extractLsb' 16 64) ∧
    ∀ t, t < 10 → (K 0).extractLsb' (72 - 8 * t) 8 = key.getD t 0) ∧
  ∀ key : List Byte, key.length = 16 →
    let K := fun j => (List.range' 1 j).foldl (fun K i => presentUpdate128 K (BitVec.ofNat 5 i)) (presentLoad 128 key)
    (presentKeySchedule 1 key).length = 32 ∧
    (∀ j, j < 32 → (presentKeySchedule 1 key).getD j 0 = (K j).extractLsb' 64 64) ∧
    ∀ t, t < 16 → (K 0).extractLsb' (120 - 8 * t) 8 = key.getD t 0

/-- R163, R164, and the rounds of R159 and R160. -/
def Obligations.PresentBlockCommandsComplete : Prop :=
  (∀ (s : State) (p : Param), (p = 0 ∧ s.keylen = 10) ∨ (p = 1 ∧ s.keylen = 16) → s.len = 8 →
    s.inMem s.keyp s.keylen.toNat → s.inMem s.src 8 → s.inMem s.dst 8 →
    (∃ t, exec (.presentEnc p) s = .next t ∧
      Completed s t s.dst 8
        (toBE64 (presentEncrypt p (be64 (s.bytesAt s.src 8)) (s.bytesAt s.keyp s.keylen.toNat)))) ∧
    ∃ t, exec (.presentDec p) s = .next t ∧
      Completed s t s.dst 8
        (toBE64 (presentDecrypt p (be64 (s.bytesAt s.src 8)) (s.bytesAt s.keyp s.keylen.toNat)))) ∧
  ∀ (p : Param) (key : List Byte) (m : DWord), (p = 0 ∧ key.length = 10) ∨ (p = 1 ∧ key.length = 16) →
    let sk := fun i => (presentKeySchedule p key).getD i 0
    presentEncrypt p m key = (List.range 31).foldl (fun b i => pLayer (sBoxLayer (b ^^^ sk i))) m ^^^ sk 31 ∧
    presentDecrypt p m key =
      (List.range 31).foldl (fun b i => sBoxLayerInv (pLayerInv b) ^^^ sk (30 - i)) (m ^^^ sk 31)

/-- R187, R191, and the equations of R171 and R177. -/
def Obligations.QuarterRoundCommandsComplete : Prop :=
  (∀ s : State, s.len = 16 → s.inMem s.src 16 → s.inMem s.dst 16 →
    (∃ t, exec (.chachaQr 0) s = .next t ∧
      Completed s t s.dst 16 (quadBytes (chachaQr (quadOfBytes (s.bytesAt s.src 16))))) ∧
    ∃ t, exec (.salsaQr 0) s = .next t ∧
      Completed s t s.dst 16 (quadBytes (salsaQr (quadOfBytes (s.bytesAt s.src 16))))) ∧
  ∀ a b c d : Word,
    (let a₁ := a + b
     let d₁ := (d ^^^ a₁).rotateLeft 16
     let c₁ := c + d₁
     let b₁ := (b ^^^ c₁).rotateLeft 12
     let a₂ := a₁ + b₁
     let d₂ := (d₁ ^^^ a₂).rotateLeft 8
     let c₂ := c₁ + d₂
     let b₂ := (b₁ ^^^ c₂).rotateLeft 7
     chachaQr ⟨a, b, c, d⟩ = ⟨a₂, b₂, c₂, d₂⟩) ∧
    (salsaQr ⟨a, b, c, d⟩).b = b ^^^ (a + d).rotateLeft 7 ∧
    (salsaQr ⟨a, b, c, d⟩).c = c ^^^ ((salsaQr ⟨a, b, c, d⟩).b + a).rotateLeft 9 ∧
    (salsaQr ⟨a, b, c, d⟩).d = d ^^^ ((salsaQr ⟨a, b, c, d⟩).c + (salsaQr ⟨a, b, c, d⟩).b).rotateLeft 13 ∧
    (salsaQr ⟨a, b, c, d⟩).a = a ^^^ ((salsaQr ⟨a, b, c, d⟩).d + (salsaQr ⟨a, b, c, d⟩).c).rotateLeft 18

/-- R188, R192, R186, and the rounds of R172 to R174 and R178 to R180 by word position. -/
def Obligations.CoreCommandsComplete : Prop :=
  (∀ (s : State) (p : Param) (R : Nat), (p = 0 ∧ R = 20) ∨ (p = 1 ∧ R = 12) ∨ (p = 2 ∧ R = 8) → s.len = 64 →
    s.inMem s.src 64 → s.inMem s.dst 64 →
    (∃ t, exec (.chachaCore p) s = .next t ∧
      Completed s t s.dst 64 (bytesLE (chachaCore R (wordsLE 16 (s.bytesAt s.src 64))))) ∧
    ∃ t, exec (.salsaCore p) s = .next t ∧
      Completed s t s.dst 64 (bytesLE (salsaCore R (wordsLE 16 (s.bytesAt s.src 64))))) ∧
  ∀ x : List Word, x.length = 16 →
    let at4 := fun (y : List Word) (i j k l : Nat) =>
      (⟨y.getD (i % 16) 0, y.getD (j % 16) 0, y.getD (k % 16) 0, y.getD (l % 16) 0⟩ : Quad)
    (∀ c, c < 4 →
      at4 (chachaColumnRound x) c (c + 4) (c + 8) (c + 12) = chachaQr (at4 x c (c + 4) (c + 8) (c + 12)) ∧
      at4 (chachaDiagonalRound x) c (4 + (c + 1) % 4) (8 + (c + 2) % 4) (12 + (c + 3) % 4) =
        chachaQr (at4 x c (4 + (c + 1) % 4) (8 + (c + 2) % 4) (12 + (c + 3) % 4)) ∧
      at4 (salsaColumnRound x) (5 * c) (5 * c + 4) (5 * c + 8) (5 * c + 12) =
        salsaQr (at4 x (5 * c) (5 * c + 4) (5 * c + 8) (5 * c + 12)) ∧
      at4 (salsaRowRound x) (4 * c + c % 4) (4 * c + (c + 1) % 4) (4 * c + (c + 2) % 4) (4 * c + (c + 3) % 4) =
        salsaQr (at4 x (4 * c + c % 4) (4 * c + (c + 1) % 4) (4 * c + (c + 2) % 4) (4 * c + (c + 3) % 4))) ∧
    ∀ n i, i < 16 →
      (chachaCore (2 * n) x).getD i 0 =
        ((List.range n).foldl (fun y _ => chachaDiagonalRound (chachaColumnRound y)) x).getD i 0 + x.getD i 0 ∧
      (salsaCore (2 * n) x).getD i 0 =
        ((List.range n).foldl (fun y _ => salsaRowRound (salsaColumnRound y)) x).getD i 0 + x.getD i 0

/-- R189, R193, R186, R25, and the word positions of R175 and R181. -/
def Obligations.BlockCommandsComplete : Prop :=
  (∀ (s : State) (p : Param) (R : Nat), (p = 0 ∧ R = 20) ∨ (p = 1 ∧ R = 12) ∨ (p = 2 ∧ R = 8) →
    s.keylen = 16 ∨ s.keylen = 32 →
    s.inMem s.keyp s.keylen.toNat → s.inMem s.ivp 8 → s.inMem s.dst 64 →
    (∃ t, exec (.chacha20Block p) s = .next t ∧
      Completed s t s.dst 64 (chachaBlock R (s.bytesAt s.keyp s.keylen.toNat) (s.bytesAt s.ivp 8)
        (BitVec.ofNat 64 (s.ctrhi.toNat * 2 ^ 32 + s.ctrlo.toNat)))) ∧
    ∃ t, exec (.salsa20Block p) s = .next t ∧
      Completed s t s.dst 64 (salsaBlock R (s.bytesAt s.keyp s.keylen.toNat) (s.bytesAt s.ivp 8)
        (BitVec.ofNat 64 (s.ctrhi.toNat * 2 ^ 32 + s.ctrlo.toNat)))) ∧
  ∀ (R : Nat) (key nonce : List Byte) (ctr : DWord), key.length = 16 ∨ key.length = 32 → nonce.length = 8 →
    let const : List Word :=
      if key.length = 32 then [0x61707865, 0x3320646e, 0x79622d32, 0x6b206574]
      else [0x61707865, 0x3120646e, 0x79622d36, 0x6b206574]
    let k := fun i => le32 (slice key (4 * (if key.length = 32 then i else i % 4)) 4)
    let n := fun i => le32 (slice nonce (4 * i) 4)
    let C := fun i => (chachaSeed key nonce ctr).getD i 0
    let S := fun i => (salsaSeed key nonce ctr).getD i 0
    chachaBlock R key nonce ctr = bytesLE (chachaCore R (chachaSeed key nonce ctr)) ∧
    salsaBlock R key nonce ctr = bytesLE (salsaCore R (salsaSeed key nonce ctr)) ∧
    (chachaSeed key nonce ctr).length = 16 ∧ (salsaSeed key nonce ctr).length = 16 ∧
    (∀ i, i < 4 → C i = const.getD i 0 ∧ S (5 * i) = const.getD i 0 ∧
      C (4 + i) = k i ∧ C (8 + i) = k (4 + i) ∧ S (1 + i) = k i ∧ S (11 + i) = k (4 + i)) ∧
    C 12 = ctr.extractLsb' 0 32 ∧ C 13 = ctr.extractLsb' 32 32 ∧
    S 8 = ctr.extractLsb' 0 32 ∧ S 9 = ctr.extractLsb' 32 32 ∧
    ∀ i, i < 2 → C (14 + i) = n i ∧ S (6 + i) = n i

/-- R190, R194, R186, R25, and R183 byte by byte. -/
def Obligations.StreamXorCommandsComplete : Prop :=
  (∀ (s : State) (p : Param) (R : Nat), (p = 0 ∧ R = 20) ∨ (p = 1 ∧ R = 12) ∨ (p = 2 ∧ R = 8) →
    s.keylen = 16 ∨ s.keylen = 32 →
    s.inMem s.keyp s.keylen.toNat → s.inMem s.ivp 8 → s.inMem s.src s.len.toNat → s.inMem s.dst s.len.toNat →
    (∃ t, exec (.chacha20Xor p) s = .next t ∧
      Completed s t s.dst s.len.toNat
        (streamXor (chachaBlock R (s.bytesAt s.keyp s.keylen.toNat) (s.bytesAt s.ivp 8))
          (BitVec.ofNat 64 (s.ctrhi.toNat * 2 ^ 32 + s.ctrlo.toNat)) (s.bytesAt s.src s.len.toNat))) ∧
    ∃ t, exec (.salsa20Xor p) s = .next t ∧
      Completed s t s.dst s.len.toNat
        (streamXor (salsaBlock R (s.bytesAt s.keyp s.keylen.toNat) (s.bytesAt s.ivp 8))
          (BitVec.ofNat 64 (s.ctrhi.toNat * 2 ^ 32 + s.ctrlo.toNat)) (s.bytesAt s.src s.len.toNat))) ∧
  ∀ (block : DWord → List Byte) (ctr : DWord) (m : List Byte), (∀ c, (block c).length = 64) →
    (streamXor block ctr m).length = m.length ∧
    ∀ i, i < m.length → (streamXor block ctr m).getD i 0 =
      m.getD i 0 ^^^ (block (ctr + BitVec.ofNat 64 (i / 64))).getD (i % 64) 0

/-- R204, and R201 turn by turn. -/
def Obligations.Rc4KsaCompletes : Prop :=
  (∀ s : State, 1 ≤ s.keylen.toNat → s.keylen.toNat ≤ 256 → s.inMem s.keyp s.keylen.toNat → s.inMem s.dst 256 →
    ∃ t, exec (.rc4Ksa 0) s = .next t ∧ Completed s t s.dst 256 (rc4Ksa (s.bytesAt s.keyp s.keylen.toNat))) ∧
  ∀ (key S : List Byte) (j : Byte), S.length = 256 →
    rc4Ksa key = ((List.range 256).foldl (rc4KsaStep key) ((List.range 256).map (BitVec.ofNat 8), 0)).1 ∧
    ∀ i, i < 256 →
      let j' := j + S.getD i 0 + key.getD (i % key.length) 0
      (rc4KsaStep key (S, j) i).2 = j' ∧
      ∀ x, x < 256 → (rc4KsaStep key (S, j) i).1.getD x 0 =
        if x = j'.toNat then S.getD i 0 else if x = i then S.getD j'.toNat 0 else S.getD x 0

/-- R205, and R202 and R203 step by step. -/
def Obligations.Rc4XorCompletes : Prop :=
  (∀ s : State, 1 ≤ s.keylen.toNat → s.keylen.toNat ≤ 256 →
    s.inMem s.keyp s.keylen.toNat → s.inMem s.src s.len.toNat → s.inMem s.dst s.len.toNat →
    ∃ t, exec (.rc4Xor 0) s = .next t ∧
      Completed s t s.dst s.len.toNat (rc4Xor (s.bytesAt s.src s.len.toNat) (s.bytesAt s.keyp s.keylen.toNat))) ∧
  (∀ t : Rc4State, t.S.length = 256 →
      let i' := t.i + 1
      let j' := t.j + t.S.getD i'.toNat 0
      let u := rc4Step t
      u.i = i' ∧ u.j = j' ∧
      (∀ x, x < 256 → u.S.getD x 0 =
        if x = j'.toNat then t.S.getD i'.toNat 0 else if x = i'.toNat then t.S.getD j'.toNat 0 else t.S.getD x 0) ∧
      rc4Out u = u.S.getD (u.S.getD i'.toNat 0 + u.S.getD j'.toNat 0).toNat 0) ∧
    ∀ (m key : List Byte) (n : Nat), n < m.length →
      (rc4Xor m key).getD n 0 =
        m.getD n 0 ^^^ rc4Out ((List.range (n + 1)).foldl (fun t _ => rc4Step t) ⟨rc4Ksa key, 0, 0⟩)

/-- R217, and R212 to R214 and R216 bit by bit. -/
def Obligations.TriviumXorCompletes : Prop :=
  (∀ s : State, s.keylen = 10 → s.inMem s.keyp 10 → s.inMem s.ivp 10 →
    s.inMem s.src s.len.toNat → s.inMem s.dst s.len.toNat →
    ∃ t, exec (.triviumXor 0) s = .next t ∧
      Completed s t s.dst s.len.toNat
        (triviumXor (s.bytesAt s.src s.len.toNat) (s.bytesAt s.keyp 10) (s.bytesAt s.ivp 10))) ∧
  (∀ t : Trivium, triviumOut t = (triviumBit t 66 ^^ triviumBit t 93 ^^ triviumBit t 162 ^^ triviumBit t 177 ^^
      triviumBit t 243 ^^ triviumBit t 288)) ∧
    ∀ (m key iv : List Byte) (n k : Nat), n < m.length → k < 8 →
      ((triviumXor m key iv).getD n 0).getLsbD k =
        ((m.getD n 0).getLsbD k ^^
          triviumOut ((List.range (1152 + 8 * n + k)).foldl (fun t _ => triviumClock t) (triviumLoad key iv)))

/-- R250, R252, R254. -/
def Obligations.CompressCommandsComplete : Prop :=
  ∀ s : State, s.len = 64 → s.inMem s.src 64 →
    (s.inMem s.ivp 16 → s.inMem s.dst 16 → ∃ t, exec (.md5Compress 0) s = .next t ∧
      Completed s t s.dst 16 (bytesLE (md5Compress (wordsLE 4 (s.bytesAt s.ivp 16)) (s.bytesAt s.src 64)))) ∧
    (s.inMem s.ivp 20 → s.inMem s.dst 20 → ∃ t, exec (.sha1Compress 0) s = .next t ∧
      Completed s t s.dst 20 (bytesBE (sha1Compress (wordsBE 5 (s.bytesAt s.ivp 20)) (s.bytesAt s.src 64)))) ∧
    (s.inMem s.ivp 32 → s.inMem s.dst 32 → ∃ t, exec (.sha256Compress 0) s = .next t ∧
      Completed s t s.dst 32 (bytesBE (sha256Compress (wordsBE 8 (s.bytesAt s.ivp 32)) (s.bytesAt s.src 64))))

/-- R251, R253, R255. -/
def Obligations.HashCommandsComplete : Prop :=
  ∀ s : State, s.inMem s.src s.len.toNat →
    (s.inMem s.dst 16 → ∃ t, exec (.md5Hash 0) s = .next t ∧
      Completed s t s.dst 16 (md5 (s.bytesAt s.src s.len.toNat))) ∧
    (s.inMem s.dst 20 → ∃ t, exec (.sha1Hash 0) s = .next t ∧
      Completed s t s.dst 20 (sha1 (s.bytesAt s.src s.len.toNat))) ∧
    (s.inMem s.dst 32 → ∃ t, exec (.sha256Hash 0) s = .next t ∧
      Completed s t s.dst 32 (sha256 (s.bytesAt s.src s.len.toNat)))

/-- R273. -/
def Obligations.KeccakF1600Completes : Prop :=
  ∀ s : State, s.len = 200 → s.inMem s.src 200 → s.inMem s.dst 200 →
    ∃ t, exec (.keccakF1600 0) s = .next t ∧ Completed s t s.dst 200 (keccakFBytes (s.bytesAt s.src 200))

/-- R274. -/
def Obligations.Sha3HashCompletes : Prop :=
  ∀ s : State, s.inMem s.src s.len.toNat → s.inMem s.dst 32 →
    ∃ t, exec (.sha3Hash 0) s = .next t ∧ Completed s t s.dst 32 (sha3 (s.bytesAt s.src s.len.toNat))

/-- The properties that R111 says follow. -/
def Obligations.GfMulFieldLaws : Prop :=
  ((∀ a : Byte, gfMul a 0 = 0 ∧ gfMul 0 a = 0 ∧ gfMul a 1 = a) ∧
    (∀ a b : Byte, gfMul a b = gfMul b a) ∧
    (∀ a b c : Byte, gfMul a (b ^^^ c) = gfMul a b ^^^ gfMul a c) ∧
    gfMul 0x80 0x02 = 0x1B ∧
    ∀ a : Byte, a ≠ 0 → ∃ b, gfMul a b = 1 ∧ ∀ b', gfMul a b' = 1 → b' = b) ∧
  ∀ a b : Byte, gfMul a 2 = (a <<< 1) ^^^ (if a.getLsbD 7 then 0x1B else 0) ∧ gfMul a (gfMul b 2) = gfMul (gfMul a b) 2

/-- R112: the variant "must agree with it for all 256×256 input pairs". -/
def Obligations.GfTableVariantAgrees : Prop :=
  (∀ a b : Byte, gfMulTable a b = gfMul a b) ∧
    gfAlogTable.length = 255 ∧ ∀ i, i < 255 → gfAlogTable.getD i 0 = gfAlog i

/-- R113, for all widths and tables. -/
def Obligations.PermuteAddressesBitsFromTheTop : Prop :=
  ∀ (fw tw : Nat) (block : BitVec fw) (table : List Nat), table.length = tw → (∀ p ∈ table, 1 ≤ p ∧ p ≤ fw) →
    ∀ i, 1 ≤ i → i ≤ tw →
      (permute fw tw block table).getLsbD (tw - i) = block.getLsbD (fw - table.getD (i - 1) 0)

/-- The defining formula of R121 against the printed table, and R122. -/
def Obligations.SboxIsFieldInverseThenAffine : Prop :=
  (∀ a b : Byte, gfMul a b = 1 →
      sbox a = b ^^^ b.rotateLeft 1 ^^^ b.rotateLeft 2 ^^^ b.rotateLeft 3 ^^^ b.rotateLeft 4 ^^^ 0x63) ∧
    sbox 0 = 0x63 ∧ ∀ a : Byte, invSbox (sbox a) = a ∧ sbox (invSbox a) = a

/-- R123 to R126 in the row and column notation of R120, the direction of ShiftRows being that of 90_conflicts.md C1; R131 and R132. -/
def Obligations.AesLayersByRowAndColumn : Prop :=
  (∀ (s k : List Byte) (r c : Nat), r < 4 → c < 4 →
    let b := fun r c => s.getD (r + 4 * c) 0
    (subBytes s).getD (r + 4 * c) 0 = sbox (b r c) ∧
    (shiftRows s).getD (r + 4 * c) 0 = b r ((c + r) % 4) ∧
    (addRoundKey s k).getD (r + 4 * c) 0 = b r c ^^^ k.getD (r + 4 * c) 0 ∧
    (mixColumns s).getD (0 + 4 * c) 0 = gfMul 2 (b 0 c) ^^^ gfMul 3 (b 1 c) ^^^ gfMul 1 (b 2 c) ^^^ gfMul 1 (b 3 c) ∧
    (mixColumns s).getD (1 + 4 * c) 0 = gfMul 1 (b 0 c) ^^^ gfMul 2 (b 1 c) ^^^ gfMul 3 (b 2 c) ^^^ gfMul 1 (b 3 c) ∧
    (mixColumns s).getD (2 + 4 * c) 0 = gfMul 1 (b 0 c) ^^^ gfMul 1 (b 1 c) ^^^ gfMul 2 (b 2 c) ^^^ gfMul 3 (b 3 c) ∧
    (mixColumns s).getD (3 + 4 * c) 0 = gfMul 3 (b 0 c) ^^^ gfMul 1 (b 1 c) ^^^ gfMul 1 (b 2 c) ^^^ gfMul 2 (b 3 c)) ∧
  ∀ s k : List Byte, (subBytes s).length = 16 ∧ (shiftRows s).length = 16 ∧ (mixColumns s).length = 16 ∧
    (addRoundKey s k).length = 16 ∧ aesRound s k = addRoundKey (mixColumns (shiftRows (subBytes s))) k ∧
    aesFinalRound s k = addRoundKey (shiftRows (subBytes s)) k

/-- R130 with `g` of R127 and the constants of R128, on the bytes of the schedule. -/
def Obligations.KeyExpansionRecurrence : Prop :=
  ∀ key : List Byte, key.length = 16 →
    let W := fun i => slice (keyExpansion key).flatten (4 * i) 4
    let rc : List Byte := [0, 0x01, 0x02, 0x04, 0x08, 0x10, 0x20, 0x40, 0x80, 0x1b, 0x36]
    let g := fun (t : List Byte) (j : Nat) =>
      [sbox (t.getD 1 0) ^^^ rc.getD j 0, sbox (t.getD 2 0), sbox (t.getD 3 0), sbox (t.getD 0 0)]
    (keyExpansion key).flatten.length = 176 ∧ (∀ i, i < 4 → W i = slice key (4 * i) 4) ∧
    ∀ i, 4 ≤ i → i < 44 →
      W i = xorBytes (W (i - 4)) (if i % 4 = 0 then g (W (i - 1)) (i / 4) else W (i - 1))

/-- The equivalence that closes 41_aes128.md section 5, on the functions the commands write. -/
def Obligations.AesEncryptFromStageCommands : Prop :=
  ∀ pt key : List Byte, pt.length = 16 → key.length = 16 →
    let ks := (keyExpansion key).flatten
    aesEncrypt pt key =
      aesFinalRound ((List.range' 1 9).foldl (fun s r => aesRound s (slice ks (16 * r) 16)) (xorBytes pt (slice ks 0 16)))
        (slice ks 160 16)

/-- R134: "`Encrypt(., key)` is a bijection on 16-byte blocks" (an injective map of a finite set to itself). -/
def Obligations.AesEncryptIsInjective : Prop :=
  ∀ key a b : List Byte, key.length = 16 → a.length = 16 → b.length = 16 →
    aesEncrypt a key = aesEncrypt b key → a = b

/-- R161. -/
def Obligations.PresentDecryptUndoesEncrypt : Prop :=
  ∀ (p : Param) (key : List Byte) (m : DWord), (p = 0 ∧ key.length = 10) ∨ (p = 1 ∧ key.length = 16) →
    presentDecrypt p (presentEncrypt p m key) key = m

/-- The corner case of R164, on the machine. -/
def Obligations.PresentDecAfterEncRestoresMemory : Prop :=
  ∀ (s : State) (p : Param), (p = 0 ∧ s.keylen = 10) ∨ (p = 1 ∧ s.keylen = 16) → s.len = 8 → s.dst = s.src →
    s.inMem s.keyp s.keylen.toNat → s.inMem s.src 8 → Apart s.keyp s.keylen.toNat s.src 8 →
    ∃ t u, exec (.presentEnc p) s = .next t ∧ exec (.presentDec p) t = .next u ∧
      ∀ a, u.mem.read a = s.mem.read a

/-- R151, R152, R153, R154. -/
def Obligations.PresentLayersByBitAndNibble : Prop :=
  (∀ b : DWord,
    (∀ i, i < 64 →
      let P := if i = 63 then 63 else 16 * i % 63
      (pLayer b).getLsbD P = b.getLsbD i ∧ (pLayerInv b).getLsbD i = b.getLsbD P) ∧
    (∀ j, j < 16 →
      (sBoxLayer b).extractLsb' (4 * j) 4 = presentSbox (b.extractLsb' (4 * j) 4) ∧
      (sBoxLayerInv b).extractLsb' (4 * j) 4 = presentInvSbox (b.extractLsb' (4 * j) 4)) ∧
    pLayerInv (pLayer b) = b ∧ sBoxLayerInv (sBoxLayer b) = b) ∧
  (List.range 16).map (fun x => presentSbox (BitVec.ofNat 4 x)) =
      [0xC, 0x5, 0x6, 0xB, 0x9, 0x0, 0xA, 0xD, 0x3, 0xE, 0xF, 0x8, 0x4, 0x7, 0x1, 0x2] ∧
    ∀ x, presentInvSbox (presentSbox x) = x ∧ presentSbox (presentInvSbox x) = x

/-- R185. -/
def Obligations.StreamXorIsItsOwnInverse : Prop :=
  ∀ (R : Nat) (key nonce : List Byte) (c : DWord) (m : List Byte),
    streamXor (chachaBlock R key nonce) c (streamXor (chachaBlock R key nonce) c m) = m ∧
    streamXor (salsaBlock R key nonce) c (streamXor (salsaBlock R key nonce) c m) = m

/-- R184; the second clause is what R345 tells a host that continues a stream to rely on. -/
def Obligations.StreamBlocksAreIndependent : Prop :=
  ∀ (R : Nat) (key nonce : List Byte),
    (∀ N q, N < q →
      slice (streamXor (chachaBlock R key nonce) 0 (List.replicate (64 * q) 0)) (64 * N) 64 =
        chachaBlock R key nonce (BitVec.ofNat 64 N) ∧
      slice (streamXor (salsaBlock R key nonce) 0 (List.replicate (64 * q) 0)) (64 * N) 64 =
        salsaBlock R key nonce (BitVec.ofNat 64 N)) ∧
    ∀ (c : DWord) (k : Nat) (m₁ m₂ : List Byte), m₁.length = 64 * k →
      streamXor (chachaBlock R key nonce) c (m₁ ++ m₂) =
        streamXor (chachaBlock R key nonce) c m₁ ++ streamXor (chachaBlock R key nonce) (c + BitVec.ofNat 64 k) m₂ ∧
      streamXor (salsaBlock R key nonce) c (m₁ ++ m₂) =
        streamXor (salsaBlock R key nonce) c m₁ ++ streamXor (salsaBlock R key nonce) (c + BitVec.ofNat 64 k) m₂

/-- "Issuing the command twice with the same operands on its own output restores the input" (R190), for the four stream ciphers, on the machine. -/
def Obligations.StreamCommandTwiceRestoresMemory : Prop :=
  ∀ s : State, s.dst = s.src → s.inMem s.src s.len.toNat →
    s.inMem s.keyp s.keylen.toNat → Apart s.keyp s.keylen.toNat s.src s.len.toNat →
    (∀ i : Instr, (i ∈ [.chacha20Xor 0, .chacha20Xor 1, .chacha20Xor 2, .salsa20Xor 0, .salsa20Xor 1, .salsa20Xor 2] ∧
        (s.keylen = 16 ∨ s.keylen = 32) ∧ s.inMem s.ivp 8 ∧ Apart s.ivp 8 s.src s.len.toNat) ∨
      (i = .rc4Xor 0 ∧ 1 ≤ s.keylen.toNat ∧ s.keylen.toNat ≤ 256) ∨
      (i = .triviumXor 0 ∧ s.keylen = 10 ∧ s.inMem s.ivp 10 ∧ Apart s.ivp 10 s.src s.len.toNat) →
      ∃ t u, exec i s = .next t ∧ exec i t = .next u ∧ ∀ a, u.mem.read a = s.mem.read a)

/-- R200: "at every point `S` is a permutation of `0..255`". -/
def Obligations.Rc4StateIsAPermutation : Prop :=
  (∀ key : List Byte, (rc4Ksa key).Perm ((List.range 256).map (BitVec.ofNat 8))) ∧
    ∀ t : Rc4State, t.S.Perm ((List.range 256).map (BitVec.ofNat 8)) →
      (rc4Step t).S.Perm ((List.range 256).map (BitVec.ofNat 8))

/-- R203 and R216. -/
def Obligations.Rc4AndTriviumKeystreams : Prop :=
  ∀ (m key iv : List Byte) (n : Nat),
    rc4Xor (rc4Xor m key) key = m ∧ (rc4Xor m key).length = m.length ∧ (rc4Xor m key).take n = rc4Xor (m.take n) key ∧
    triviumXor (triviumXor m key iv) key iv = m ∧ (triviumXor m key iv).length = m.length ∧
    (triviumXor m key iv).take n = triviumXor (m.take n) key iv

/-- R211, R215 and R212, bit by bit. -/
def Obligations.TriviumLoadAndClockByBit : Prop :=
  (∀ key iv : List Byte, key.length = 10 → iv.length = 10 → ∀ k, 1 ≤ k → k ≤ 288 →
      triviumBit (triviumLoad key iv) k =
        if k ≤ 80 then (key.getD ((k - 1) / 8) 0).getLsbD ((k - 1) % 8)
        else if 94 ≤ k ∧ k ≤ 173 then (iv.getD ((k - 94) / 8) 0).getLsbD ((k - 94) % 8)
        else decide (286 ≤ k)) ∧
    ∀ t : Trivium,
      let s := triviumBit t
      let u := triviumBit (triviumClock t)
      u 1 = ((s 243 ^^ s 288) ^^ (s 286 && s 287) ^^ s 69) ∧
      u 94 = ((s 66 ^^ s 93) ^^ (s 91 && s 92) ^^ s 171) ∧
      u 178 = ((s 162 ^^ s 177) ^^ (s 175 && s 176) ^^ s 264) ∧
      ∀ k, 2 ≤ k → k ≤ 288 → k ≠ 94 → k ≠ 178 → u k = s (k - 1)

/-- R220, for both byte orders of the length field. -/
def Obligations.HashPaddingShape : Prop :=
  ∀ (m : List Byte) (lenField : DWord → List Byte), lenField = toBE64 ∨ lenField = toLE64 → m.length < 2 ^ 61 →
    let p := hashPad lenField m
    p.length = 64 * ((m.length + 8) / 64 + 1) ∧ p.take m.length = m ∧ p.getD m.length 0 = 0x80 ∧
    (∀ i, m.length < i → i + 8 < p.length → p.getD i 1 = 0) ∧
    p.drop (p.length - 8) = lenField (BitVec.ofNat 64 (8 * m.length)) ∧
    (BitVec.ofNat 64 (8 * m.length)).toNat = 8 * m.length

/-- R268, R269, R270 to R272. -/
def Obligations.Sha3PaddingAndSingleBlock : Prop :=
  (∀ m : List Byte,
    (sha3Pad m).length = 136 * (m.length / 136 + 1) ∧ (sha3Pad m).take m.length = m ∧
    (∀ i, m.length ≤ i → i < (sha3Pad m).length →
      (sha3Pad m).getD i 0 =
        (if i = m.length then 0x06 else 0) ^^^ (if i + 1 = (sha3Pad m).length then 0x80 else 0)) ∧
    (m.length ≤ 135 → sha3 m = (keccakFBytes (sha3Pad m ++ List.replicate 64 0)).take 32)) ∧
  (∀ m : List Byte, sha3 m = (sha3AbsorbBlocks ((sha3Pad m).length / 136) (List.replicate 200 0) (sha3Pad m)).take 32) ∧
    ∀ (n : Nat) (st b p : List Byte), st.length = 200 → b.length = 136 →
      sha3AbsorbBlocks 0 st p = st ∧
      sha3AbsorbBlocks (n + 1) st (b ++ p) =
        sha3AbsorbBlocks n (keccakFBytes (xorBytes (st.take 136) b ++ st.drop 136)) p

/-- R231, R243, R247, and the selectors, rounds and compressions of R222, R224 to R227, R230, R232 to R234, R242, R244 and R245. -/
def Obligations.ScheduleRecurrences : Prop :=
  (∀ block : List Byte,
    let V := fun i => (sha1Schedule block).getD i 0
    let W := fun i => (sha256Schedule block).getD i 0
    (sha1Schedule block).length = 80 ∧ (sha256Schedule block).length = 64 ∧
    (∀ j, j < 16 → V j = be32 (slice block (4 * j) 4) ∧ W j = be32 (slice block (4 * j) 4)) ∧
    (∀ i, 16 ≤ i → i < 80 → V i = (V (i - 3) ^^^ V (i - 8) ^^^ V (i - 14) ^^^ V (i - 16)).rotateLeft 1) ∧
    ∀ i, 16 ≤ i → i < 64 →
      W i = ((W (i - 2)).rotateRight 17 ^^^ (W (i - 2)).rotateRight 19 ^^^ (W (i - 2)) >>> 10) + W (i - 7) +
        ((W (i - 15)).rotateRight 7 ^^^ (W (i - 15)).rotateRight 18 ^^^ (W (i - 15)) >>> 3) + W (i - 16)) ∧
  (md5Iv = [0x67452301, 0xefcdab89, 0x98badcfe, 0x10325476] ∧
    sha1Iv = [0x67452301, 0xefcdab89, 0x98badcfe, 0x10325476, 0xc3d2e1f0]) ∧
  (∀ (M : List Word) (v : Md5Vars) (i : Nat), i < 64 →
    let F := if i < 16 then (v.b &&& v.c) ||| (~~~v.b &&& v.d) else if i < 32 then (v.d &&& v.b) ||| (~~~v.d &&& v.c)
      else if i < 48 then v.b ^^^ v.c ^^^ v.d else v.c ^^^ (v.b ||| ~~~v.d)
    let g := if i < 16 then i else if i < 32 then (5 * i + 1) % 16 else if i < 48 then (3 * i + 5) % 16 else (7 * i) % 16
    let r := if i < 16 then [7, 12, 17, 22] else if i < 32 then [5, 9, 14, 20] else if i < 48 then [4, 11, 16, 23]
      else [6, 10, 15, 21]
    md5Round M v i =
      ⟨v.d, v.b + (F + v.a + md5K.getD i 0 + M.getD g 0).rotateLeft (r.getD (i % 4) 0), v.b, v.c⟩) ∧
  (∀ (W : List Word) (v : Sha1Vars) (i : Nat), i < 80 →
    let f := if i < 20 then (v.b &&& v.c) ||| (~~~v.b &&& v.d)
      else if 40 ≤ i ∧ i < 60 then (v.b &&& v.c) ||| (v.b &&& v.d) ||| (v.c &&& v.d) else v.b ^^^ v.c ^^^ v.d
    let k := [0x5a827999, 0x6ed9eba1, 0x8f1bbcdc, 0xca62c1d6].getD (i / 20) 0
    sha1Round W v i = ⟨v.a.rotateLeft 5 + f + v.e + k + W.getD i 0, v.a, v.b.rotateLeft 30, v.c, v.d⟩) ∧
  (∀ (W : List Word) (v : Sha256Vars) (i : Nat), i < 64 →
    let T1 := v.h + (v.e.rotateRight 6 ^^^ v.e.rotateRight 11 ^^^ v.e.rotateRight 25) +
      ((v.e &&& v.f) ^^^ (~~~v.e &&& v.g)) + sha256K.getD i 0 + W.getD i 0
    let T2 := (v.a.rotateRight 2 ^^^ v.a.rotateRight 13 ^^^ v.a.rotateRight 22) +
      ((v.a &&& v.b) ^^^ (v.a &&& v.c) ^^^ (v.b &&& v.c))
    sha256Round W v i = ⟨T1 + T2, v.a, v.b, v.c, v.d + T1, v.e, v.f, v.g⟩) ∧
  ∀ (h : List Word) (block : List Byte),
    let H := fun i => h.getD i 0
    let v := (List.range 64).foldl (md5Round (wordsLE 16 block)) ⟨H 0, H 1, H 2, H 3⟩
    let u := (List.range 80).foldl (sha1Round (sha1Schedule block)) ⟨H 0, H 1, H 2, H 3, H 4⟩
    let w := (List.range 64).foldl (sha256Round (sha256Schedule block)) ⟨H 0, H 1, H 2, H 3, H 4, H 5, H 6, H 7⟩
    md5Compress h block = [H 0 + v.a, H 1 + v.b, H 2 + v.c, H 3 + v.d] ∧
    sha1Compress h block = [H 0 + u.a, H 1 + u.b, H 2 + u.c, H 3 + u.d, H 4 + u.e] ∧
    sha256Compress h block =
      [H 0 + w.a, H 1 + w.b, H 2 + w.c, H 3 + w.d, H 4 + w.e, H 5 + w.f, H 6 + w.g, H 7 + w.h]

/-- R221, R228, R229, R235, R236, R246, R248: what a host that chains `*.COMPRESS` commands relies on. -/
def Obligations.HashIsChainedCompression : Prop :=
  (∀ (f : List Word → List Byte → List Word) (h : List Word) (b p : List Byte), b.length = 64 →
      hashWords f h (b ++ p) = hashWords f (f h b) p ∧ hashWords f h [] = h) ∧
    (∀ m : List Byte,
      md5 m = bytesLE (hashWords md5Compress md5Iv (hashPad toLE64 m)) ∧
      sha1 m = bytesBE (hashWords sha1Compress sha1Iv (hashPad toBE64 m)) ∧
      sha256 m = bytesBE (hashWords sha256Compress sha256Iv (hashPad toBE64 m))) ∧
    ∀ m : List Byte, m.length ≤ 55 →
      md5 m = bytesLE (md5Compress md5Iv (hashPad toLE64 m)) ∧
      sha1 m = bytesBE (sha1Compress sha1Iv (hashPad toBE64 m)) ∧
      sha256 m = bytesBE (sha256Compress sha256Iv (hashPad toBE64 m))

/-- R260 to R265 lane by lane, R266, R267. -/
def Obligations.KeccakStepsByLane : Prop :=
  (∀ (A : List DWord) (ir x y : Nat), A.length = 25 → x < 5 → y < 5 →
    let a := fun x y => A.getD (x % 5 + 5 * (y % 5)) 0
    let C := fun x => a x 0 ^^^ a x 1 ^^^ a x 2 ^^^ a x 3 ^^^ a x 4
    (keccakTheta A).getD (x + 5 * y) 0 = a x y ^^^ (C (x + 4) ^^^ (C (x + 1)).rotateLeft 1) ∧
    (keccakRho A).getD (x + 5 * y) 0 = (a x y).rotateLeft ((rhoOffsets.getD y []).getD x 0) ∧
    (keccakPi A).getD (x + 5 * y) 0 = a (x + 3 * y) x ∧
    (keccakChi A).getD (x + 5 * y) 0 = a x y ^^^ (~~~(a (x + 1) y) &&& a (x + 2) y) ∧
    (keccakIota A ir).getD (x + 5 * y) 0 = a x y ^^^ (if x = 0 ∧ y = 0 then keccakRC.getD ir 0 else 0)) ∧
  (∀ (A : List DWord) (ir : Nat),
      keccakRound A ir = keccakIota (keccakChi (keccakPi (keccakRho (keccakTheta A)))) ir ∧
      keccakF A = (List.range 24).foldl keccakRound A) ∧
    ∀ (st : List Byte) (x y : Nat), x < 5 → y < 5 →
      (lanesOfBytes st).getD (x + 5 * y) 0 = le64 (slice st (8 * (x + 5 * y)) 8) ∧
      slice (keccakFBytes st) (8 * (x + 5 * y)) 8 = toLE64 ((keccakF (lanesOfBytes st)).getD (x + 5 * y) 0)

/-- The generating formulas of R223, R240, R241, R262 and R265 against the printed tables: for a root, with `p` the prime, `n` = the constant plus 2^32 times the integer part of the root is the floor of the root times 2^32. -/
def Obligations.TablesAreTheirGenerators : Prop :=
  (let primes := (List.range 312).filter fun n => decide (2 ≤ n ∧ ∀ d ∈ List.range' 2 16, d < n → n % d ≠ 0)
  primes.length = 64 ∧ sha256Iv.length = 8 ∧ sha256K.length = 64 ∧
  (∀ i ∈ List.range 8, ∃ r ∈ List.range 5,
    let n := r * 2 ^ 32 + (sha256Iv.getD i 0).toNat
    n ^ 2 ≤ primes.getD i 0 * 2 ^ 64 ∧ primes.getD i 0 * 2 ^ 64 < (n + 1) ^ 2) ∧
  (∀ i ∈ List.range 64, ∃ r ∈ List.range 7,
    let n := r * 2 ^ 32 + (sha256K.getD i 0).toNat
    n ^ 3 ≤ primes.getD i 0 * 2 ^ 96 ∧ primes.getD i 0 * 2 ^ 96 < (n + 1) ^ 3) ∧
  (let walk := (List.range 24).foldl (fun (w : List (Nat × Nat)) _ =>
      ((w.headD (0, 0)).2, (2 * (w.headD (0, 0)).1 + 3 * (w.headD (0, 0)).2) % 5) :: w) [(1, 0)];
     (rhoOffsets.getD 0 []).getD 0 1 = 0 ∧
    ∀ t ∈ List.range 24, ∀ xy ∈ (walk.reverse.drop t).take 1,
      (rhoOffsets.getD xy.2 []).getD xy.1 0 = (t + 1) * (t + 2) / 2 % 64) ∧
  (let lfsr := (List.range 168).foldl (fun (w : List Nat) _ =>
      (if w.headD 0 < 128 then 2 * w.headD 0 else Nat.xor (2 * w.headD 0) 0x171) :: w) [1];
     keccakRC.length = 24 ∧
    ∀ ir ∈ List.range 24, ∀ b ∈ List.range 64,
      (keccakRC.getD ir 0).getLsbD b =
        (List.range 7).any fun j => b == 2 ^ j - 1 && (lfsr.reverse.getD (7 * ir + j) 0) % 2 == 1)) ∧
  md5K.length = 64 ∧ ∀ i ∈ List.range 64,
    let x := i + 1
    -- the term of index k, the sum of the positive terms and the sum of the negative ones, scaled by 2^300
    let series := (List.range 120).foldl (fun (t : Nat × Nat × Nat) k =>
      (t.1 * x * x / ((2 * k + 2) * (2 * k + 3)), if k % 2 = 0 then t.2.1 + t.1 else t.2.1, if k % 2 = 0 then t.2.2 else t.2.2 + t.1))
      (x * 2 ^ 300, 0, 0)
    (md5K.getD i 0).toNat = ((series.2.1 - series.2.2) + (series.2.2 - series.2.1)) / 2 ^ 268
end

