-- ==== Sys2Proof/Laws/Memory.lean ====
section
/-! SUPPORT. What the memory operations do: a read after a write, the bytes of a range, and the canonical form, which every
operation keeps. -/

namespace Sys2Proof.Machine

@[simp] theorem Memory.read_nil (a : Nat) : Memory.read [] a = Config.unlistedByte := rfl

theorem Memory.read_cons (k : Nat) (v : Byte) (m : Memory) (a : Nat) :
    Memory.read ((k, v) :: m) a = if k = a then v else Memory.read m a := rfl

theorem Memory.read_of_not_mem {m : Memory} {a : Nat} (h : ∀ c ∈ m, c.1 ≠ a) :
    Memory.read m a = Config.unlistedByte := by
  induction m with
  | nil => rfl
  | cons c m ih =>
    obtain ⟨k, v⟩ := c
    have hk : k ≠ a := h (k, v) (by simp)
    rw [Memory.read_cons, if_neg hk]
    exact ih fun c hc => h c (by simp [hc])

theorem Memory.mem_erase {m : Memory} {a : Nat} {c : Host.Cell} :
    c ∈ m.erase a ↔ c ∈ m ∧ c.1 ≠ a := by
  simp [Memory.erase]

theorem Memory.read_erase_self (m : Memory) (a : Nat) : (m.erase a).read a = Config.unlistedByte :=
  Memory.read_of_not_mem fun _ hc => (Memory.mem_erase.1 hc).2

theorem Memory.read_erase_of_ne (m : Memory) {a x : Nat} (h : x ≠ a) : (m.erase a).read x = m.read x := by
  induction m with
  | nil => rfl
  | cons c m ih =>
    obtain ⟨k, v⟩ := c
    unfold Memory.erase at ih ⊢
    by_cases hk : k = a
    · subst hk
      simpa [Memory.read_cons, Ne.symm h] using ih
    · simp [hk, Memory.read_cons, ih]

theorem Memory.read_insert_self {m : Memory} {a : Nat} (b : Byte) (h : ∀ c ∈ m, c.1 ≠ a) :
    (m.insert a b).read a = b := by
  induction m with
  | nil => simp [Memory.insert, Memory.read_cons]
  | cons c m ih =>
    obtain ⟨k, v⟩ := c
    have hk : k ≠ a := h (k, v) (by simp)
    unfold Memory.insert
    split
    · simp [Memory.read_cons]
    · rw [Memory.read_cons, if_neg hk]
      exact ih fun c hc => h c (by simp [hc])

theorem Memory.read_insert_of_ne (m : Memory) {a x : Nat} (b : Byte) (h : x ≠ a) :
    (m.insert a b).read x = m.read x := by
  induction m with
  | nil => simp [Memory.insert, Memory.read_cons, Ne.symm h]
  | cons c m ih =>
    obtain ⟨k, v⟩ := c
    unfold Memory.insert
    split
    · simp [Memory.read_cons, Ne.symm h]
    · simp [Memory.read_cons, ih]

/-- A byte reads back as it was stored. -/
theorem Memory.read_write_self (m : Memory) (a : Nat) (b : Byte) : (m.write a b).read a = b := by
  unfold Memory.write
  split
  · next h => rw [Memory.read_erase_self, h]
  · exact Memory.read_insert_self b fun _ hc => (Memory.mem_erase.1 hc).2

/-- Storing a byte leaves every other address alone. -/
theorem Memory.read_write_of_ne (m : Memory) {a x : Nat} (b : Byte) (h : x ≠ a) :
    (m.write a b).read x = m.read x := by
  unfold Memory.write
  split
  · exact Memory.read_erase_of_ne m h
  · rw [Memory.read_insert_of_ne _ _ h, Memory.read_erase_of_ne m h]

@[simp] theorem Memory.writeBytes_nil (m : Memory) (a : Nat) : m.writeBytes a [] = m := rfl

theorem Memory.writeBytes_cons (m : Memory) (a : Nat) (b : Byte) (bs : List Byte) :
    m.writeBytes a (b :: bs) = (m.write a b).writeBytes (a + 1) bs := rfl

/-- Storing bytes leaves every address outside their range alone. -/
theorem Memory.read_writeBytes_of_outside (m : Memory) {a x : Nat} (v : List Byte)
    (h : x < a ∨ a + v.length ≤ x) : (m.writeBytes a v).read x = m.read x := by
  induction v generalizing m a with
  | nil => rfl
  | cons b bs ih =>
    rw [List.length_cons] at h
    rw [Memory.writeBytes_cons, ih _ (by omega), Memory.read_write_of_ne _ _ (by omega)]

/-- Each byte of a range reads back as it was stored. -/
theorem Memory.read_writeBytes_of_inside (m : Memory) {a i : Nat} (v : List Byte) (h : i < v.length) :
    (m.writeBytes a v).read (a + i) = v.getD i 0 := by
  induction v generalizing m a i with
  | nil => simp at h
  | cons b bs ih =>
    rw [Memory.writeBytes_cons]
    cases i with
    | zero =>
      rw [Memory.read_writeBytes_of_outside _ _ (by omega)]
      simpa using Memory.read_write_self m a b
    | succ i =>
      have := ih (m.write a b) (a := a + 1) (i := i) (by simpa using h)
      rw [show a + (i + 1) = a + 1 + i by omega, this]
      simp

@[simp] theorem Memory.readBytes_length (m : Memory) (a n : Nat) : (m.readBytes a n).length = n := by
  simp [Memory.readBytes]

theorem Memory.readBytes_getD (m : Memory) (a n : Nat) {i : Nat} (h : i < n) :
    (m.readBytes a n).getD i 0 = m.read (a + i) := by
  simp [Memory.readBytes, List.getD_eq_getElem?_getD, h]

/-! ### The canonical form -/

theorem Memory.wf_nil : Memory.wf [] := by simp [Memory.wf]

theorem Memory.wf_erase {m : Memory} (h : m.wf) (a : Nat) : (m.erase a).wf :=
  ⟨h.1.filter _, fun c hc => h.2 c (Memory.mem_erase.1 hc).1⟩

theorem Memory.mem_insert {m : Memory} {a : Nat} {b : Byte} {c : Host.Cell} :
    c ∈ m.insert a b ↔ c = (a, b) ∨ c ∈ m := by
  induction m with
  | nil => simp [Memory.insert]
  | cons d m ih =>
    obtain ⟨k, v⟩ := d
    unfold Memory.insert
    split
    · simp
    · simp only [List.mem_cons, ih]
      tauto

theorem Memory.wf_insert {m : Memory} (h : m.wf) {a : Nat} {b : Byte} (ha : ∀ c ∈ m, c.1 ≠ a)
    (hb : b ≠ Config.unlistedByte) : (m.insert a b).wf := by
  refine ⟨?_, fun c hc => ?_⟩
  · induction m with
    | nil => simp [Memory.insert]
    | cons d m ih =>
      obtain ⟨k, v⟩ := d
      have hp := List.pairwise_cons.1 h.1
      have hk : k ≠ a := ha (k, v) (by simp)
      unfold Memory.insert
      split
      · next hlt =>
        refine List.pairwise_cons.2 ⟨fun c hc => ?_, h.1⟩
        rcases List.mem_cons.1 hc with rfl | hc
        · exact hlt
        · exact Nat.lt_trans hlt (hp.1 c hc)
      · next hge =>
        refine List.pairwise_cons.2 ⟨fun c hc => ?_, ih ⟨hp.2, fun c hc => h.2 c (by simp [hc])⟩
          fun c hc => ha c (by simp [hc])⟩
        rcases Memory.mem_insert.1 hc with rfl | hc
        · show k < a
          omega
        · exact hp.1 c hc
  · rcases Memory.mem_insert.1 hc with rfl | hc
    · exact hb
    · exact h.2 c hc

/-- Storing a byte keeps the canonical form. -/
theorem Memory.wf_write {m : Memory} (h : m.wf) (a : Nat) (b : Byte) : (m.write a b).wf := by
  unfold Memory.write
  split
  · exact Memory.wf_erase h a
  · next hb => exact Memory.wf_insert (Memory.wf_erase h a) (fun _ hc => (Memory.mem_erase.1 hc).2) hb

/-- Storing bytes keeps the canonical form. -/
theorem Memory.wf_writeBytes {m : Memory} (h : m.wf) (a : Nat) (v : List Byte) : (m.writeBytes a v).wf := by
  induction v generalizing m a with
  | nil => exact h
  | cons b bs ih => exact ih (Memory.wf_write h a b) (a + 1)

theorem Memory.wf_writeRange {m : Memory} (h : m.wf) (r : Option Range) (v : List Byte) : (m.writeRange r v).wf := by
  cases r with
  | none => exact h
  | some r => exact Memory.wf_writeBytes h r.base v

/-- The cells a byte store leaves: those there were, and the stored one. -/
theorem Memory.mem_write {m : Memory} {a : Nat} {b : Byte} {c : Host.Cell} (h : c ∈ m.write a b) :
    c = (a, b) ∨ c ∈ m := by
  unfold Memory.write at h
  split at h
  · exact .inr (Memory.mem_erase.1 h).1
  · rcases Memory.mem_insert.1 h with h | h
    · exact .inl h
    · exact .inr (Memory.mem_erase.1 h).1

/-- The addresses a store of bytes leaves: those there were, and those of its range. -/
theorem Memory.mem_writeBytes {m : Memory} {a : Nat} {v : List Byte} {c : Host.Cell} (h : c ∈ m.writeBytes a v) :
    (a ≤ c.1 ∧ c.1 < a + v.length) ∨ c ∈ m := by
  induction v generalizing m a with
  | nil => exact .inr h
  | cons b bs ih =>
    rw [List.length_cons]
    rcases ih h with h | h
    · left
      omega
    · rcases Memory.mem_write h with rfl | h
      · left
        show a ≤ a ∧ a < a + (bs.length + 1)
        omega
      · exact .inr h

/-- Cells brought in by a reset are in canonical form and below the size. -/
theorem Memory.ofCells_wf (size : Nat) (cells : List Host.Cell) :
    (Memory.ofCells size cells).wf ∧ ∀ c ∈ Memory.ofCells size cells, c.1 < size := by
  have step : ∀ (cells : List Host.Cell) (m : Memory), m.wf → (∀ c ∈ m, c.1 < size) →
      (cells.foldl (fun (m : Memory) c => if c.1 < size then m.write c.1 c.2 else m) m).wf ∧
        ∀ c ∈ cells.foldl (fun (m : Memory) c => if c.1 < size then m.write c.1 c.2 else m) m, c.1 < size := by
    intro cells
    induction cells with
    | nil => exact fun m hw hb => ⟨hw, hb⟩
    | cons d cells ih =>
      intro m hw hb
      rw [List.foldl_cons]
      refine ih _ ?_ ?_
      · split
        · exact Memory.wf_write hw d.1 d.2
        · exact hw
      · split
        · next hd =>
          intro c hc
          rcases Memory.mem_write hc with rfl | hc
          · exact hd
          · exact hb c hc
        · exact hb
  exact step cells [] Memory.wf_nil (by simp)

end Sys2Proof.Machine
end

