-- ==== Sys2Proof/Laws/State.lean ====
section
/-! SUPPORT. One lemma for each field of the state under each update, and the register accessors. -/

namespace Sys2Proof.Machine

section
variable (s : State) (v : Word)
@[simp] theorem setStatus_status : (s.setStatus v).status = v := rfl
@[simp] theorem setStatus_src : (s.setStatus v).src = s.src := rfl
@[simp] theorem setStatus_dst : (s.setStatus v).dst = s.dst := rfl
@[simp] theorem setStatus_len : (s.setStatus v).len = s.len := rfl
@[simp] theorem setStatus_keyp : (s.setStatus v).keyp = s.keyp := rfl
@[simp] theorem setStatus_keylen : (s.setStatus v).keylen = s.keylen := rfl
@[simp] theorem setStatus_ivp : (s.setStatus v).ivp = s.ivp := rfl
@[simp] theorem setStatus_ctrlo : (s.setStatus v).ctrlo = s.ctrlo := rfl
@[simp] theorem setStatus_ctrhi : (s.setStatus v).ctrhi = s.ctrhi := rfl
@[simp] theorem setStatus_mem : (s.setStatus v).mem = s.mem := rfl
@[simp] theorem setStatus_memSize : (s.setStatus v).memSize = s.memSize := rfl
@[simp] theorem setStatus_host : (s.setStatus v).host = s.host := rfl
@[simp] theorem setStatus_port : (s.setStatus v).port = s.port := rfl
end

section
variable (s : State) (m : Memory)
@[simp] theorem setMem_status : (s.setMem m).status = s.status := rfl
@[simp] theorem setMem_src : (s.setMem m).src = s.src := rfl
@[simp] theorem setMem_dst : (s.setMem m).dst = s.dst := rfl
@[simp] theorem setMem_len : (s.setMem m).len = s.len := rfl
@[simp] theorem setMem_keyp : (s.setMem m).keyp = s.keyp := rfl
@[simp] theorem setMem_keylen : (s.setMem m).keylen = s.keylen := rfl
@[simp] theorem setMem_ivp : (s.setMem m).ivp = s.ivp := rfl
@[simp] theorem setMem_ctrlo : (s.setMem m).ctrlo = s.ctrlo := rfl
@[simp] theorem setMem_ctrhi : (s.setMem m).ctrhi = s.ctrhi := rfl
@[simp] theorem setMem_mem : (s.setMem m).mem = m := rfl
@[simp] theorem setMem_memSize : (s.setMem m).memSize = s.memSize := rfl
@[simp] theorem setMem_host : (s.setMem m).host = s.host := rfl
@[simp] theorem setMem_port : (s.setMem m).port = s.port := rfl
end

section
variable (s : State) (p : PortOut)
@[simp] theorem setPort_status : (s.setPort p).status = s.status := rfl
@[simp] theorem setPort_src : (s.setPort p).src = s.src := rfl
@[simp] theorem setPort_dst : (s.setPort p).dst = s.dst := rfl
@[simp] theorem setPort_len : (s.setPort p).len = s.len := rfl
@[simp] theorem setPort_keyp : (s.setPort p).keyp = s.keyp := rfl
@[simp] theorem setPort_keylen : (s.setPort p).keylen = s.keylen := rfl
@[simp] theorem setPort_ivp : (s.setPort p).ivp = s.ivp := rfl
@[simp] theorem setPort_ctrlo : (s.setPort p).ctrlo = s.ctrlo := rfl
@[simp] theorem setPort_ctrhi : (s.setPort p).ctrhi = s.ctrhi := rfl
@[simp] theorem setPort_mem : (s.setPort p).mem = s.mem := rfl
@[simp] theorem setPort_memSize : (s.setPort p).memSize = s.memSize := rfl
@[simp] theorem setPort_host : (s.setPort p).host = s.host := rfl
@[simp] theorem setPort_port : (s.setPort p).port = p := rfl
end

section
variable (s : State) (h : List HostEvent)
@[simp] theorem setHost_status : (s.setHost h).status = s.status := rfl
@[simp] theorem setHost_src : (s.setHost h).src = s.src := rfl
@[simp] theorem setHost_dst : (s.setHost h).dst = s.dst := rfl
@[simp] theorem setHost_len : (s.setHost h).len = s.len := rfl
@[simp] theorem setHost_keyp : (s.setHost h).keyp = s.keyp := rfl
@[simp] theorem setHost_keylen : (s.setHost h).keylen = s.keylen := rfl
@[simp] theorem setHost_ivp : (s.setHost h).ivp = s.ivp := rfl
@[simp] theorem setHost_ctrlo : (s.setHost h).ctrlo = s.ctrlo := rfl
@[simp] theorem setHost_ctrhi : (s.setHost h).ctrhi = s.ctrhi := rfl
@[simp] theorem setHost_mem : (s.setHost h).mem = s.mem := rfl
@[simp] theorem setHost_memSize : (s.setHost h).memSize = s.memSize := rfl
@[simp] theorem setHost_host : (s.setHost h).host = h := rfl
@[simp] theorem setHost_port : (s.setHost h).port = s.port := rfl
end

section
variable (s : State) (rest : List HostEvent)
@[simp] theorem takeEvent_status : (s.takeEvent rest).status = s.status := rfl
@[simp] theorem takeEvent_src : (s.takeEvent rest).src = s.src := rfl
@[simp] theorem takeEvent_dst : (s.takeEvent rest).dst = s.dst := rfl
@[simp] theorem takeEvent_len : (s.takeEvent rest).len = s.len := rfl
@[simp] theorem takeEvent_keyp : (s.takeEvent rest).keyp = s.keyp := rfl
@[simp] theorem takeEvent_keylen : (s.takeEvent rest).keylen = s.keylen := rfl
@[simp] theorem takeEvent_ivp : (s.takeEvent rest).ivp = s.ivp := rfl
@[simp] theorem takeEvent_ctrlo : (s.takeEvent rest).ctrlo = s.ctrlo := rfl
@[simp] theorem takeEvent_ctrhi : (s.takeEvent rest).ctrhi = s.ctrhi := rfl
@[simp] theorem takeEvent_mem : (s.takeEvent rest).mem = s.mem := rfl
@[simp] theorem takeEvent_memSize : (s.takeEvent rest).memSize = s.memSize := rfl
@[simp] theorem takeEvent_host : (s.takeEvent rest).host = rest := rfl
@[simp] theorem takeEvent_port : (s.takeEvent rest).port = .nothing := rfl
end

section
variable (s : State) (e : ErrorCode)
@[simp] theorem raise_status : (s.raise e).status = statusOnError e := rfl
@[simp] theorem succeed_status : s.succeed.status = statusOnSuccess s.status := rfl
@[simp] theorem clearStatus_status : s.clearStatus.status = 0 := rfl
@[simp] theorem raise_src : (s.raise e).src = s.src := rfl
@[simp] theorem succeed_src : s.succeed.src = s.src := rfl
@[simp] theorem clearStatus_src : s.clearStatus.src = s.src := rfl
@[simp] theorem raise_dst : (s.raise e).dst = s.dst := rfl
@[simp] theorem succeed_dst : s.succeed.dst = s.dst := rfl
@[simp] theorem clearStatus_dst : s.clearStatus.dst = s.dst := rfl
@[simp] theorem raise_len : (s.raise e).len = s.len := rfl
@[simp] theorem succeed_len : s.succeed.len = s.len := rfl
@[simp] theorem clearStatus_len : s.clearStatus.len = s.len := rfl
@[simp] theorem raise_keyp : (s.raise e).keyp = s.keyp := rfl
@[simp] theorem succeed_keyp : s.succeed.keyp = s.keyp := rfl
@[simp] theorem clearStatus_keyp : s.clearStatus.keyp = s.keyp := rfl
@[simp] theorem raise_keylen : (s.raise e).keylen = s.keylen := rfl
@[simp] theorem succeed_keylen : s.succeed.keylen = s.keylen := rfl
@[simp] theorem clearStatus_keylen : s.clearStatus.keylen = s.keylen := rfl
@[simp] theorem raise_ivp : (s.raise e).ivp = s.ivp := rfl
@[simp] theorem succeed_ivp : s.succeed.ivp = s.ivp := rfl
@[simp] theorem clearStatus_ivp : s.clearStatus.ivp = s.ivp := rfl
@[simp] theorem raise_ctrlo : (s.raise e).ctrlo = s.ctrlo := rfl
@[simp] theorem succeed_ctrlo : s.succeed.ctrlo = s.ctrlo := rfl
@[simp] theorem clearStatus_ctrlo : s.clearStatus.ctrlo = s.ctrlo := rfl
@[simp] theorem raise_ctrhi : (s.raise e).ctrhi = s.ctrhi := rfl
@[simp] theorem succeed_ctrhi : s.succeed.ctrhi = s.ctrhi := rfl
@[simp] theorem clearStatus_ctrhi : s.clearStatus.ctrhi = s.ctrhi := rfl
@[simp] theorem raise_mem : (s.raise e).mem = s.mem := rfl
@[simp] theorem succeed_mem : s.succeed.mem = s.mem := rfl
@[simp] theorem clearStatus_mem : s.clearStatus.mem = s.mem := rfl
@[simp] theorem raise_memSize : (s.raise e).memSize = s.memSize := rfl
@[simp] theorem succeed_memSize : s.succeed.memSize = s.memSize := rfl
@[simp] theorem clearStatus_memSize : s.clearStatus.memSize = s.memSize := rfl
@[simp] theorem raise_host : (s.raise e).host = s.host := rfl
@[simp] theorem succeed_host : s.succeed.host = s.host := rfl
@[simp] theorem clearStatus_host : s.clearStatus.host = s.host := rfl
@[simp] theorem raise_port : (s.raise e).port = s.port := rfl
@[simp] theorem succeed_port : s.succeed.port = s.port := rfl
@[simp] theorem clearStatus_port : s.clearStatus.port = s.port := rfl
end

section
variable (s : State) (v : Word)
@[simp] theorem writeReg_cmd : s.writeReg .cmd v = s := rfl
@[simp] theorem writeReg_status : s.writeReg .status v = s := rfl
@[simp] theorem writeReg_src : s.writeReg .src v = { s with src := v } := rfl
@[simp] theorem writeReg_dst : s.writeReg .dst v = { s with dst := v } := rfl
@[simp] theorem writeReg_len : s.writeReg .len v = { s with len := v } := rfl
@[simp] theorem writeReg_keyp : s.writeReg .keyp v = { s with keyp := v } := rfl
@[simp] theorem writeReg_keylen : s.writeReg .keylen v = { s with keylen := v } := rfl
@[simp] theorem writeReg_ivp : s.writeReg .ivp v = { s with ivp := v } := rfl
@[simp] theorem writeReg_ctrlo : s.writeReg .ctrlo v = { s with ctrlo := v } := rfl
@[simp] theorem writeReg_ctrhi : s.writeReg .ctrhi v = { s with ctrhi := v } := rfl
@[simp] theorem readReg_cmd : s.readReg .cmd = 0 := rfl
@[simp] theorem readReg_status : s.readReg .status = s.status := rfl
@[simp] theorem readReg_src : s.readReg .src = s.src := rfl
@[simp] theorem readReg_dst : s.readReg .dst = s.dst := rfl
@[simp] theorem readReg_len : s.readReg .len = s.len := rfl
@[simp] theorem readReg_keyp : s.readReg .keyp = s.keyp := rfl
@[simp] theorem readReg_keylen : s.readReg .keylen = s.keylen := rfl
@[simp] theorem readReg_ivp : s.readReg .ivp = s.ivp := rfl
@[simp] theorem readReg_ctrlo : s.readReg .ctrlo = s.ctrlo := rfl
@[simp] theorem readReg_ctrhi : s.readReg .ctrhi = s.ctrhi := rfl
end

section
variable (s : State) (r : Reg) (v : Word)

/-- A register write touches neither memory nor `STATUS` nor the model's own fields. -/
@[simp] theorem writeReg_keeps_status : (s.writeReg r v).status = s.status := by cases r <;> rfl
@[simp] theorem writeReg_keeps_mem : (s.writeReg r v).mem = s.mem := by cases r <;> rfl
@[simp] theorem writeReg_keeps_memSize : (s.writeReg r v).memSize = s.memSize := by cases r <;> rfl
@[simp] theorem writeReg_keeps_host : (s.writeReg r v).host = s.host := by cases r <;> rfl
@[simp] theorem writeReg_keeps_port : (s.writeReg r v).port = s.port := by cases r <;> rfl

/-- Reading a register of the map after writing it. -/
theorem readReg_writeReg_self (h : r ≠ .cmd) (h' : r ≠ .status) : (s.writeReg r v).readReg r = v := by
  cases r <;> first | rfl | contradiction

/-- Reading another register after a write. -/
theorem readReg_writeReg_of_ne {q : Reg} (h : q ≠ r) : (s.writeReg r v).readReg q = s.readReg q := by
  cases r <;> cases q <;> first | rfl | contradiction

end

end Sys2Proof.Machine
end

