-- ==== Sys2Proof/Laws/Command.lean ====
section
/-! SUPPORT. Everything a command can do, said once: which checks pass, and what the shared operations `checked` and
`runCommand` and the host's transactions answer. -/

namespace Sys2Proof.Machine

theorem Range.inside_iff (r : Range) (n : Nat) : r.inside n = true ↔ r.len = 0 ∨ r.base + r.len ≤ n := by
  simp [Range.inside]

/-- No check fails exactly when every register a command reads is legal and every range is inside `MEM`. -/
theorem Operands.firstError_eq_none_iff (o : Operands) (n : Nat) :
    o.firstError n = none ↔
      o.legalParam = true ∧ o.legalKeyLen = true ∧ o.legalLen = true ∧ ∀ r ∈ o.ranges, r.inside n = true := by
  unfold Operands.firstError
  cases o.legalParam <;> cases o.legalKeyLen <;> cases o.legalLen <;> simp

/-- A command never stops, and it answers one of two states. -/
theorem checked_cases (o : Operands) (s : State) (done : State → State) :
    (∃ e, o.firstError s.memSize = some e ∧ checked o s done = .next (s.raise e)) ∨
      (o.firstError s.memSize = none ∧ checked o s done = .next (done s)) := by
  unfold checked
  cases h : o.firstError s.memSize with
  | none => exact .inr ⟨rfl, rfl⟩
  | some e => exact .inl ⟨e, rfl, rfl⟩

theorem checked_next {o : Operands} {s t : State} {done : State → State} (h : checked o s done = .next t) :
    (∃ e, o.firstError s.memSize = some e ∧ t = s.raise e) ∨ (o.firstError s.memSize = none ∧ t = done s) := by
  rcases checked_cases o s done with ⟨e, he, hc⟩ | ⟨hn, hc⟩ <;> rw [hc] at h <;> cases h
  · exact .inl ⟨e, he, rfl⟩
  · exact .inr ⟨hn, rfl⟩

theorem checked_of_error {o : Operands} {s : State} {done : State → State} {e : ErrorCode} (h : o.firstError s.memSize = some e) :
    checked o s done = .next (s.raise e) := by
  simp [checked, h]

theorem checked_of_legal {o : Operands} {s : State} {done : State → State} (h : o.firstError s.memSize = none) :
    checked o s done = .next (done s) := by
  simp [checked, h]

/-- Everything `runCommand` can answer. -/
theorem runCommand_next {o : Operands} {f : Inputs → List Byte} {s t : State} (h : runCommand o f s = .next t) :
    (∃ e, o.firstError s.memSize = some e ∧ t = s.raise e) ∨
      (o.firstError s.memSize = none ∧
        t = (s.setMem (s.mem.writeRange o.dst (f (o.inputs s.mem)))).succeed) :=
  checked_next h

theorem runCommand_of_error {o : Operands} {f : Inputs → List Byte} {s : State} {e : ErrorCode}
    (h : o.firstError s.memSize = some e) : runCommand o f s = .next (s.raise e) :=
  checked_of_error h

theorem runCommand_of_legal {o : Operands} {f : Inputs → List Byte} {s : State} (h : o.firstError s.memSize = none) :
    runCommand o f s = .next (s.setMem (s.mem.writeRange o.dst (f (o.inputs s.mem)))).succeed :=
  checked_of_legal h

/-- `exec` on an illegal word, and on a legal one. -/
theorem issue_of_ok {w : Word} {i : Instr} {s : State} (h : decode w = .ok i) : issue w s = exec i s := by
  simp [issue, h]

theorem issue_of_error {w : Word} {r : DecodeReject} {s : State} (h : decode w = .error r) :
    issue w s = .next (s.raise .illegalCommand) := by
  simp [issue, h]

/-- Everything a host memory write can answer. -/
theorem hostMemWrite_next {addr : Nat} {v : List Byte} {s t : State} (h : hostMemWrite addr v s = .next t) :
    addr + v.length ≤ s.memSize ∧ t = s.setMem (s.mem.writeBytes addr v) := by
  unfold hostMemWrite at h
  split at h
  · next hin =>
    cases h
    exact ⟨hin, rfl⟩
  · cases h

theorem hostMemRead_next {addr n : Nat} {s t : State} (h : hostMemRead addr n s = .next t) :
    addr + n ≤ s.memSize ∧ t = s.setPort (.bytes (s.mem.readBytes addr n)) := by
  unfold hostMemRead at h
  split at h
  · next hin =>
    cases h
    exact ⟨hin, rfl⟩
  · cases h

theorem hostRegRead_next {off : Nat} {s t : State} (h : hostRegRead off s = .next t) :
    ∃ r, regAt off = some r ∧ t = s.setPort (.word (s.readReg r)) := by
  unfold hostRegRead at h
  split at h
  · cases h
  · next r hr =>
    cases h
    exact ⟨r, hr, rfl⟩

/-- A register write issues a command at `CMD`, and stores a register everywhere else in the map. -/
theorem hostRegWrite_next {off : Nat} {v : Word} {s t : State} (h : hostRegWrite off v s = .next t) :
    (regAt off = some .cmd ∧ issue v s = .next t) ∨
      ∃ r, regAt off = some r ∧ r ≠ .cmd ∧ t = s.writeReg r v := by
  unfold hostRegWrite at h
  split at h
  · cases h
  · next hr => exact .inl ⟨hr, h⟩
  · next r hne hr =>
    cases h
    exact .inr ⟨r, hr, fun hc => hne (hc ▸ rfl), rfl⟩

end Sys2Proof.Machine
end

