-- ==== Sys2Proof/Laws/Lengths.lean ====
section
/-! SUPPORT. The length of what each engine gives: the output of a command fills its output range (30_encoding.md R88). -/

namespace Sys2Proof.Machine

@[simp] theorem toLE32_length (v : Word) : (toLE32 v).length = 4 := rfl
@[simp] theorem toBE32_length (v : Word) : (toBE32 v).length = 4 := rfl
@[simp] theorem toLE64_length (v : DWord) : (toLE64 v).length = 8 := rfl
@[simp] theorem toBE64_length (v : DWord) : (toBE64 v).length = 8 := rfl

@[simp] theorem wordsLE_length (n : Nat) (b : List Byte) : (wordsLE n b).length = n := by simp [wordsLE]
@[simp] theorem wordsBE_length (n : Nat) (b : List Byte) : (wordsBE n b).length = n := by simp [wordsBE]

theorem length_flatMap_const {α β : Type} (f : α → List β) (k : Nat) (h : ∀ a, (f a).length = k) (l : List α) :
    (l.flatMap f).length = k * l.length := by
  induction l with
  | nil => simp
  | cons a l ih => simp [h, ih, Nat.mul_add, Nat.add_comm]

@[simp] theorem bytesLE_length (ws : List Word) : (bytesLE ws).length = 4 * ws.length :=
  length_flatMap_const _ 4 (fun _ => rfl) ws
@[simp] theorem bytesBE_length (ws : List Word) : (bytesBE ws).length = 4 * ws.length :=
  length_flatMap_const _ 4 (fun _ => rfl) ws

/-! ### AES -/

@[simp] theorem aesState_length (f : Nat → Byte) : (aesState f).length = 16 := by simp [aesState]
@[simp] theorem subBytes_length (s : List Byte) : (subBytes s).length = 16 := by simp [subBytes]
@[simp] theorem shiftRows_length (s : List Byte) : (shiftRows s).length = 16 := by simp [shiftRows]
@[simp] theorem mixColumns_length (s : List Byte) : (mixColumns s).length = 16 := by simp [mixColumns]
@[simp] theorem addRoundKey_length (s k : List Byte) : (addRoundKey s k).length = 16 := by simp [addRoundKey]
@[simp] theorem aesRound_length (s k : List Byte) : (aesRound s k).length = 16 := by simp [aesRound]
@[simp] theorem aesFinalRound_length (s k : List Byte) : (aesFinalRound s k).length = 16 := by simp [aesFinalRound]
@[simp] theorem aesEncrypt_length (pt key : List Byte) : (aesEncrypt pt key).length = 16 := by simp [aesEncrypt]

@[simp] theorem roundKey_length (ws : List AesWord) (r : Nat) : (roundKey ws r).length = 16 := rfl

@[simp] theorem keyExpansion_flatten_length (key : List Byte) : (keyExpansion key).flatten.length = 176 := by
  simp [keyExpansion, List.length_flatten, Function.comp_def]

/-! ### PRESENT -/

@[simp] theorem presentSubkeys_length {w : Nat} (u : BitVec w → BitVec 5 → BitVec w) (n i : Nat) (k : BitVec w) :
    (presentSubkeys u n i k).length = n + 1 := by
  induction n generalizing i k with
  | zero => rfl
  | succ n ih => simp [presentSubkeys, ih]

@[simp] theorem presentKeySchedule_length (p : Param) (key : List Byte) : (presentKeySchedule p key).length = 32 := by
  unfold presentKeySchedule
  split <;> simp

@[simp] theorem presentKeySchedule_bytes_length (p : Param) (key : List Byte) :
    ((presentKeySchedule p key).flatMap toBE64).length = 256 := by
  rw [length_flatMap_const toBE64 8 toBE64_length, presentKeySchedule_length]

/-! ### ChaCha and Salsa -/

@[simp] theorem quarterAt_length (qr : Quad → Quad) (i j k l : Nat) (x : List Word) :
    (quarterAt qr i j k l x).length = x.length := by
  simp [quarterAt]

theorem alternate_length {f g : List Word → List Word} (hf : ∀ x, (f x).length = x.length)
    (hg : ∀ x, (g x).length = x.length) (r : Nat) (x : List Word) : (alternate f g r x).length = x.length := by
  unfold alternate
  generalize List.range r = l
  induction l generalizing x with
  | nil => rfl
  | cons n l ih =>
    rw [List.foldl_cons, ih]
    split
    · exact hf x
    · exact hg x

@[simp] theorem chachaCore_length (r : Nat) (x : List Word) : (chachaCore r x).length = x.length := by
  unfold chachaCore
  rw [List.length_zipWith,
    alternate_length (by simp [chachaColumnRound]) (by simp [chachaDiagonalRound]), Nat.min_self]

@[simp] theorem salsaCore_length (r : Nat) (x : List Word) : (salsaCore r x).length = x.length := by
  unfold salsaCore
  rw [List.length_zipWith,
    alternate_length (by simp [salsaColumnRound]) (by simp [salsaRowRound]), Nat.min_self]

@[simp] theorem chachaBlock_length (r : Nat) (key nonce : List Byte) (c : DWord) :
    (chachaBlock r key nonce c).length = 64 := by
  simp [chachaBlock, chachaSeed]

@[simp] theorem salsaBlock_length (r : Nat) (key nonce : List Byte) (c : DWord) :
    (salsaBlock r key nonce c).length = 64 := by
  simp [salsaBlock, salsaSeed]

@[simp] theorem quadBytes_length (q : Quad) : (quadBytes q).length = 16 := rfl

theorem streamXorFrom_length {block : DWord → List Byte} (hb : ∀ c, (block c).length = 64) (q : Nat) (c : DWord)
    (m : List Byte) (h : m.length ≤ 64 * q) : (streamXorFrom block q c m).length = m.length := by
  induction q generalizing c m with
  | zero =>
    have : m = [] := List.length_eq_zero_iff.1 (by omega)
    simp [streamXorFrom, this]
  | succ q ih =>
    rw [streamXorFrom, List.length_append, ih _ _ (by rw [List.length_drop]; omega)]
    simp only [xorBytes, List.length_zipWith, hb, List.length_take, List.length_drop]
    omega

/-- "Output length == input length" (R183). -/
theorem streamXor_length {block : DWord → List Byte} (hb : ∀ c, (block c).length = 64) (c : DWord) (m : List Byte) :
    (streamXor block c m).length = m.length :=
  streamXorFrom_length hb _ _ _ (by omega)

/-! ### RC4 and Trivium -/

@[simp] theorem rc4Swap_length (S : List Byte) (i j : Byte) : (rc4Swap S i j).length = S.length := by
  simp [rc4Swap]

@[simp] theorem rc4Ksa_length (key : List Byte) : (rc4Ksa key).length = 256 := by
  have : ∀ (l : List Nat) (Sj : List Byte × Byte), ((l.foldl (rc4KsaStep key) Sj).1).length = Sj.1.length := by
    intro l
    induction l with
    | nil => simp
    | cons i l ih =>
      intro Sj
      rw [List.foldl_cons, ih]
      simp [rc4KsaStep]
  simp [rc4Ksa, this]

theorem rc4XorFrom_length (t : Rc4State) (m : List Byte) : (rc4XorFrom t m).length = m.length := by
  induction m generalizing t with
  | nil => rfl
  | cons b m ih => simp [rc4XorFrom, ih]

@[simp] theorem rc4Xor_length (m key : List Byte) : (rc4Xor m key).length = m.length := rc4XorFrom_length _ m

theorem triviumXorFrom_length (t : Trivium) (m : List Byte) : (triviumXorFrom t m).length = m.length := by
  induction m generalizing t with
  | nil => rfl
  | cons b m ih => simp [triviumXorFrom, ih]

@[simp] theorem triviumXor_length (m key iv : List Byte) : (triviumXor m key iv).length = m.length :=
  triviumXorFrom_length _ m

/-! ### Hashes -/

@[simp] theorem addToChaining_length (h v : List Word) : (addToChaining h v).length = v.length := by
  simp [addToChaining]

@[simp] theorem md5Compress_length (h : List Word) (b : List Byte) : (md5Compress h b).length = 4 := rfl
@[simp] theorem sha1Compress_length (h : List Word) (b : List Byte) : (sha1Compress h b).length = 5 := rfl
@[simp] theorem sha256Compress_length (h : List Word) (b : List Byte) : (sha256Compress h b).length = 8 := rfl

theorem hashBlocks_length {compress : List Word → List Byte → List Word} {k : Nat}
    (hc : ∀ h b, (compress h b).length = k) (n : Nat) (h : List Word) (p : List Byte) (hh : h.length = k) :
    (hashBlocks compress n h p).length = k := by
  induction n generalizing h p with
  | zero => exact hh
  | succ n ih => exact ih _ _ (hc _ _)

@[simp] theorem md5_length (m : List Byte) : (md5 m).length = 16 := by
  simp [md5, hashWords, hashBlocks_length md5Compress_length, md5Iv]
@[simp] theorem sha1_length (m : List Byte) : (sha1 m).length = 20 := by
  simp [sha1, hashWords, hashBlocks_length sha1Compress_length, sha1Iv]
@[simp] theorem sha256_length (m : List Byte) : (sha256 m).length = 32 := by
  simp [sha256, hashWords, hashBlocks_length sha256Compress_length, sha256Iv]

@[simp] theorem lanes_length (f : Nat → Nat → DWord) : (lanes f).length = 25 := by simp [lanes]
@[simp] theorem keccakRound_length (A : List DWord) (ir : Nat) : (keccakRound A ir).length = 25 := by
  simp [keccakRound, keccakIota, keccakChi]

theorem keccakF_length {A : List DWord} (h : A.length = 25) : (keccakF A).length = 25 := by
  unfold keccakF
  generalize List.range 24 = l
  induction l generalizing A with
  | nil => exact h
  | cons n l ih => exact ih (keccakRound_length A n)

@[simp] theorem keccakFBytes_length (st : List Byte) : (keccakFBytes st).length = 200 := by
  unfold keccakFBytes bytesOfLanes
  rw [length_flatMap_const _ 8 (fun _ => rfl), keccakF_length (by simp [lanesOfBytes])]

theorem sha3AbsorbBlocks_length (n : Nat) (st p : List Byte) (h : st.length = 200) :
    (sha3AbsorbBlocks n st p).length = 200 := by
  induction n generalizing st p with
  | zero => exact h
  | succ n ih => exact ih _ _ (keccakFBytes_length _)

@[simp] theorem sha3_length (m : List Byte) : (sha3 m).length = 32 := by
  unfold sha3 sha3Absorb
  rw [List.length_take, sha3AbsorbBlocks_length _ _ _ List.length_replicate]
  rfl

end Sys2Proof.Machine
end

