-- ==== Sys2Proof/Laws/PerInstr.lean ====
section
/-! SUPPORT. Statements about commands as syntax, one lemma for each constructor. `FormatC`: an encoded command has the fields of
format `C` (30_encoding.md R80, R82). -/

namespace Sys2Proof.Laws.FormatC

/-- The encoded word has `OP` in bits 7:0, `PARAM` in bits 11:8 and zeros in bits 31:12. -/
abbrev Statement (i : Instr) : Prop :=
  wordOp (encode i) = opcode i ∧ wordParam (encode i) = i.param ∧ wordZero (encode i) = 0

theorem nop (p : Param) : Statement (.nop p) := by
  revert p
  decide
theorem clrstat (p : Param) : Statement (.clrstat p) := by
  revert p
  decide
theorem gfMul (p : Param) : Statement (.gfMul p) := by
  revert p
  decide
theorem aes128Keyexp (p : Param) : Statement (.aes128Keyexp p) := by
  revert p
  decide
theorem aesRnd (p : Param) : Statement (.aesRnd p) := by
  revert p
  decide
theorem aesRndlast (p : Param) : Statement (.aesRndlast p) := by
  revert p
  decide
theorem aes128Enc (p : Param) : Statement (.aes128Enc p) := by
  revert p
  decide
theorem presentKeysched (p : Param) : Statement (.presentKeysched p) := by
  revert p
  decide
theorem presentEnc (p : Param) : Statement (.presentEnc p) := by
  revert p
  decide
theorem presentDec (p : Param) : Statement (.presentDec p) := by
  revert p
  decide
theorem chachaQr (p : Param) : Statement (.chachaQr p) := by
  revert p
  decide
theorem chachaCore (p : Param) : Statement (.chachaCore p) := by
  revert p
  decide
theorem chacha20Block (p : Param) : Statement (.chacha20Block p) := by
  revert p
  decide
theorem chacha20Xor (p : Param) : Statement (.chacha20Xor p) := by
  revert p
  decide
theorem salsaQr (p : Param) : Statement (.salsaQr p) := by
  revert p
  decide
theorem salsaCore (p : Param) : Statement (.salsaCore p) := by
  revert p
  decide
theorem salsa20Block (p : Param) : Statement (.salsa20Block p) := by
  revert p
  decide
theorem salsa20Xor (p : Param) : Statement (.salsa20Xor p) := by
  revert p
  decide
theorem rc4Ksa (p : Param) : Statement (.rc4Ksa p) := by
  revert p
  decide
theorem rc4Xor (p : Param) : Statement (.rc4Xor p) := by
  revert p
  decide
theorem triviumXor (p : Param) : Statement (.triviumXor p) := by
  revert p
  decide
theorem md5Compress (p : Param) : Statement (.md5Compress p) := by
  revert p
  decide
theorem md5Hash (p : Param) : Statement (.md5Hash p) := by
  revert p
  decide
theorem sha1Compress (p : Param) : Statement (.sha1Compress p) := by
  revert p
  decide
theorem sha1Hash (p : Param) : Statement (.sha1Hash p) := by
  revert p
  decide
theorem sha256Compress (p : Param) : Statement (.sha256Compress p) := by
  revert p
  decide
theorem sha256Hash (p : Param) : Statement (.sha256Hash p) := by
  revert p
  decide
theorem keccakF1600 (p : Param) : Statement (.keccakF1600 p) := by
  revert p
  decide
theorem sha3Hash (p : Param) : Statement (.sha3Hash p) := by
  revert p
  decide

end Sys2Proof.Laws.FormatC
end

