-- ==== Sys2Proof/Tests/Slice0.lean ====
section
/-! SUPPORT. Tests of the model by hand: words written out from the encoding tables, one known answer or two for each command
(values from 95_test_vectors.md, section named at each test, or from hand calculation), and a witness for the hypotheses of
every statement of Certificates/Slice0/Obligations.lean. Each test is one step. -/

namespace Sys2Proof.Tests

set_option Elab.async false

open Sys2Proof.Machine

/-- Memory of 0x1000 bytes, registers 0, with some bytes stored. -/
def bench (contents : List (Nat × List Byte)) : State :=
  State.reset.setMem (contents.foldl (fun m c => m.writeBytes c.1 c.2) [])

/-- The step of the host writing `w` to `CMD` gives a next state of which `p` holds. -/
def issues (w : Nat) (s : State) (p : State → Bool) : Bool :=
  match step (s.withFetchWord 32 w) with
  | .next t => p t
  | _ => false

/-- The command succeeds and leaves these bytes at an address. -/
def stores (w : Nat) (s : State) (a : Nat) (out : List Byte) : Bool :=
  issues w s fun t => t.status == 0x00000001 && t.mem.readBytes a out.length == out

/-- The command leaves this `STATUS`. -/
def leaves (w : Nat) (s : State) (status : Word) : Bool := issues w s fun t => t.status == status

/-- One event performed on a state leaves a state of which `p` holds. -/
def performs (e : HostEvent) (s : State) (p : State → Bool) : Bool :=
  match step { s with host := [e] } with
  | .next t => p t
  | _ => false

/-- One event performed on a state is refused for this reason. -/
def refuses (e : HostEvent) (s : State) (r : Refusal) : Bool :=
  match step { s with host := [e] } with
  | .refused r' => r == r'
  | _ => false

/-! Well-formedness: each legal set of `PARAM` of R83 with its last legal and first illegal value. -/

/-- R83. -/
theorem test_wellFormed_accepts :
    [Instr.nop 0, Instr.clrstat 0, Instr.gfMul 0, Instr.aes128Keyexp 0, Instr.aesRnd 0, Instr.aesRndlast 0, Instr.aes128Enc 0, Instr.presentKeysched 1, Instr.presentEnc 1, Instr.presentDec 1, Instr.chachaQr 0, Instr.chachaCore 2, Instr.chacha20Block 2, Instr.chacha20Xor 2, Instr.salsaQr 0, Instr.salsaCore 2, Instr.salsa20Block 2, Instr.salsa20Xor 2, Instr.rc4Ksa 0, Instr.rc4Xor 0, Instr.triviumXor 0, Instr.md5Compress 0, Instr.md5Hash 0, Instr.sha1Compress 0, Instr.sha1Hash 0, Instr.sha256Compress 0, Instr.sha256Hash 0, Instr.keccakF1600 0, Instr.sha3Hash 0].all Instr.wellFormed = true := by decide

/-- R83: ill-formed terms, one for each constructor; the check refuses every one. -/
theorem test_wellFormed_refuses :
    [Instr.nop 1, Instr.clrstat 1, Instr.gfMul 1, Instr.aes128Keyexp 1, Instr.aesRnd 1, Instr.aesRndlast 1, Instr.aes128Enc 1, Instr.presentKeysched 2, Instr.presentEnc 2, Instr.presentDec 2, Instr.chachaQr 1, Instr.chachaCore 3, Instr.chacha20Block 3, Instr.chacha20Xor 3, Instr.salsaQr 1, Instr.salsaCore 3, Instr.salsa20Block 3, Instr.salsa20Xor 3, Instr.rc4Ksa 1, Instr.rc4Xor 1, Instr.triviumXor 1, Instr.md5Compress 1, Instr.md5Hash 1, Instr.sha1Compress 1, Instr.sha1Hash 1, Instr.sha256Compress 1, Instr.sha256Hash 1, Instr.keccakF1600 1, Instr.sha3Hash 1].any Instr.wellFormed = false := by decide

/-! Decoding: the words of R82 written out bit by bit, by family; with them the alias words of R90. -/

theorem test_decode_system :
    decode 0b00000000000000000000_0000_00000000#32 = .ok (.nop 0) ∧
    decode 0b00000000000000000000_0000_00000001#32 = .ok (.clrstat 0) := by decide

theorem test_decode_gf :
    decode 0b00000000000000000000_0000_00001000#32 = .ok (.gfMul 0) := by decide

theorem test_decode_aes :
    decode 0b00000000000000000000_0000_00010000#32 = .ok (.aes128Keyexp 0) ∧
    decode 0b00000000000000000000_0000_00010001#32 = .ok (.aesRnd 0) ∧
    decode 0b00000000000000000000_0000_00010010#32 = .ok (.aesRndlast 0) ∧
    decode 0b00000000000000000000_0000_00010011#32 = .ok (.aes128Enc 0) := by decide

theorem test_decode_present :
    decode 0b00000000000000000000_0000_00100000#32 = .ok (.presentKeysched 0) ∧
    decode 0b00000000000000000000_0001_00100000#32 = .ok (.presentKeysched 1) ∧
    decode 0b00000000000000000000_0000_00100001#32 = .ok (.presentEnc 0) ∧
    decode 0b00000000000000000000_0001_00100001#32 = .ok (.presentEnc 1) ∧
    decode 0b00000000000000000000_0000_00100010#32 = .ok (.presentDec 0) ∧
    decode 0b00000000000000000000_0001_00100010#32 = .ok (.presentDec 1) := by decide

theorem test_decode_chacha :
    decode 0b00000000000000000000_0000_00110000#32 = .ok (.chachaQr 0) ∧
    decode 0b00000000000000000000_0000_00110001#32 = .ok (.chachaCore 0) ∧
    decode 0b00000000000000000000_0010_00110001#32 = .ok (.chachaCore 2) ∧
    decode 0b00000000000000000000_0000_00110010#32 = .ok (.chacha20Block 0) ∧
    decode 0b00000000000000000000_0010_00110010#32 = .ok (.chacha20Block 2) ∧
    decode 0b00000000000000000000_0000_00110011#32 = .ok (.chacha20Xor 0) ∧
    decode 0b00000000000000000000_0010_00110011#32 = .ok (.chacha20Xor 2) := by decide

theorem test_decode_salsa :
    decode 0b00000000000000000000_0000_00111000#32 = .ok (.salsaQr 0) ∧
    decode 0b00000000000000000000_0000_00111001#32 = .ok (.salsaCore 0) ∧
    decode 0b00000000000000000000_0010_00111001#32 = .ok (.salsaCore 2) ∧
    decode 0b00000000000000000000_0000_00111010#32 = .ok (.salsa20Block 0) ∧
    decode 0b00000000000000000000_0010_00111010#32 = .ok (.salsa20Block 2) ∧
    decode 0b00000000000000000000_0000_00111011#32 = .ok (.salsa20Xor 0) ∧
    decode 0b00000000000000000000_0010_00111011#32 = .ok (.salsa20Xor 2) := by decide

theorem test_decode_rc4 :
    decode 0b00000000000000000000_0000_01000000#32 = .ok (.rc4Ksa 0) ∧
    decode 0b00000000000000000000_0000_01000001#32 = .ok (.rc4Xor 0) := by decide

theorem test_decode_trivium :
    decode 0b00000000000000000000_0000_01001000#32 = .ok (.triviumXor 0) := by decide

theorem test_decode_md5 :
    decode 0b00000000000000000000_0000_01010000#32 = .ok (.md5Compress 0) ∧
    decode 0b00000000000000000000_0000_01010001#32 = .ok (.md5Hash 0) := by decide

theorem test_decode_sha1 :
    decode 0b00000000000000000000_0000_01010100#32 = .ok (.sha1Compress 0) ∧
    decode 0b00000000000000000000_0000_01010101#32 = .ok (.sha1Hash 0) := by decide

theorem test_decode_sha256 :
    decode 0b00000000000000000000_0000_01011000#32 = .ok (.sha256Compress 0) ∧
    decode 0b00000000000000000000_0000_01011001#32 = .ok (.sha256Hash 0) := by decide

theorem test_decode_keccak :
    decode 0b00000000000000000000_0000_01100000#32 = .ok (.keccakF1600 0) ∧
    decode 0b00000000000000000000_0000_01100001#32 = .ok (.sha3Hash 0) := by decide

/-- R85: such a word decodes, and the command answers `UnsupportedParameter`. -/
theorem test_decode_param_outside_legal_set :
    decode 0b00000000000000000000_0101_00100001#32 = .ok (.presentEnc 5) := by decide

/-- R85: neighbours of assigned codes, and each reserved bit alone over `NOP`. -/
theorem test_decode_refuses :
    (∀ op ∈ [0x02, 0x07, 0x09, 0x0F, 0x14, 0x23, 0x34, 0x3C, 0x42, 0x49, 0x52, 0x53, 0x56, 0x57, 0x5A, 0x62, 0xFF],
      decode (BitVec.ofNat 32 op) = .error .unassignedOp) ∧
    ∀ b ∈ List.range' 12 20, decode (BitVec.ofNat 32 (2 ^ b)) = .error .reservedBitsNotZero := by decide

/-- R82: 29 codes are assigned. -/
theorem test_decode_assigned_count :
    ((List.range 256).filter fun op => (decode (BitVec.ofNat 32 op)).toOption.isSome).length = 29 := by decide +kernel

theorem test_decodeTableWord :
    decodeTableWord 32 0x13B = some (.salsa20Xor 1) ∧ decodeTableWord 32 0x62 = none ∧
    decodeTableWord 32 0x80000013 = none ∧ decodeTableWord 16 0x221 = some (.presentEnc 2) := by decide

/-- R80, R89. -/
theorem test_encode_words :
    encode (.presentDec 1) = 0x00000122#32 ∧ encode (.sha3Hash 15) = 0x00000F61#32 := by decide

/-! `STATUS` after one command (G13). -/

theorem test_status_of_illegal_words :
    leaves 0x0 State.reset 0x001 = true ∧
    leaves 0x1 State.reset 0x000 = true ∧
    leaves 0x100 State.reset 0x131 = true ∧
    leaves 0xF01 State.reset 0x131 = true ∧
    leaves 0x2 State.reset 0x141 = true ∧
    leaves 0xFF State.reset 0x141 = true ∧
    leaves 0x1000 State.reset 0x141 = true ∧
    leaves 0x80000013 State.reset 0x141 = true ∧
    leaves 0xFFFFFFFF State.reset 0x141 = true ∧
    leaves 0x13 State.reset 0x111 = true := by decide

/-- The last row is the wrap of G14. -/
theorem test_status_of_failing_checks :
    leaves 0x13 { State.reset with keylen := 16 } 0x121 = true ∧
    leaves 0x13 { State.reset with keylen := 16, len := 16, dst := 0xFF1 } 0x151 = true ∧
    leaves 0x521 { State.reset with keylen := 3, len := 8 } 0x131 = true ∧
    leaves 0x21 { State.reset with keylen := 3, len := 8 } 0x111 = true ∧
    leaves 0x21 { State.reset with keylen := 10, len := 9 } 0x121 = true ∧
    leaves 0x59 { State.reset with len := 0x1001 } 0x151 = true ∧
    leaves 0x59 { State.reset with len := 0, dst := 0xFE1 } 0x151 = true ∧
    leaves 0x48 { State.reset with keylen := 10, len := 0, ivp := 0xFF7 } 0x151 = true ∧
    leaves 0x13 { State.reset with keylen := 16, len := 16, keyp := 0xFFFFFFF8 } 0x151 = true := by decide +kernel

/-- G13, `STICKY`. -/
theorem test_sticky :
    leaves 0x00 { State.reset with status := 0x111 } 0x101 = true ∧
    leaves 0x02 { State.reset with status := 0x101 } 0x141 = true ∧
    leaves 0x01 { State.reset with status := 0x111 } 0x000 = true ∧
    performs (.regWrite 0x04 0x55) { State.reset with status := 0x111 } (fun t => t.status == 0x111) = true := by decide

/-! The host's own transactions (R51) and reset (R340). -/

theorem test_host_registers :
    performs (.regWrite 0x24 0xDEADBEEF) State.reset (fun t => t.ctrhi == 0xDEADBEEF) = true ∧
    performs (.regRead 0x00) { State.reset with status := 0x151 } (fun t => t.port == .word 0) = true ∧
    performs (.regRead 0x04) { State.reset with status := 0x151 } (fun t => t.port == .word 0x151) = true ∧
    refuses (.regRead 0x28) State.reset (.noSuchRegister 0x28) = true := by decide

theorem test_host_memory :
    performs (.memWrite 0xFFE [1, 2]) State.reset (fun t => t.mem == [(0xFFE, 1), (0xFFF, 2)]) = true ∧
    performs (.memRead 0xFFE 2) (bench [(0xFFE, [1, 2])]) (fun t => t.port == .bytes [1, 2]) = true ∧
    refuses (.memRead 0xFFF 2) State.reset (.hostRangeOutsideMem 0xFFF 2) = true := by decide

/-- The canonical form: ascending, and a stored 0 takes the entry away. -/
theorem test_memory_canonical :
    Memory.write (Memory.write (Memory.write [] 5 1) 3 2) 4 9 = [(3, 2), (4, 9), (5, 1)] ∧
    Memory.write [(3, 2), (5, 1)] 3 0 = [(5, 1)] ∧ Memory.write [(3, 2), (5, 1)] 5 7 = [(3, 2), (5, 7)] := by decide

theorem test_reset_event :
    performs (.reset [(7, 1), (0x1000, 1), (2, 0)]) { State.reset with status := 0x151, keyp := 9 }
      (fun t => t == { State.reset with mem := [(7, 1)] }) = true := by decide

/-- R4. -/
theorem test_idle :
    step State.reset = .next State.reset := rfl

/-! The utilities (G1, G2). -/

/-- G1. -/
theorem test_gfMul_vectors :
    gfMul 0x57 0x83 = 0xc1 ∧ gfMul 0x57 0x13 = 0xfe ∧
    gfMul 0x80 0x02 = 0x1b ∧ gfMul 0xff 0xff = 0x13 ∧
    gfMul 0x53 0xca = 0x01 ∧ gfMul 0x0e 0x09 = 0x7e := by decide

/-- G2. -/
theorem test_permute :
    permute 4 4 0b1011 [4, 3, 2, 1] = 0b1101 ∧ permute 2 4 0b10 [1, 2, 1, 2] = 0b1010 ∧
    permute 8 8 0b10000000 [2, 3, 4, 5, 6, 7, 8, 1] = 1 ∧ permute 8 4 0xA5 [1, 3, 5, 7] = 0b1100 ∧
    permute 1 3 1 [1, 1, 1] = 0b111 := by decide

/-! One known answer for each command. -/

/-- G1, in place and unaligned. -/
theorem test_gfMul :
    stores 0x08
      { bench [(0x1, [0x57, 0x83])] with src := 1, dst := 1, len := 2 }
      0x1 [0xc1] = true := by decide +kernel

/-- G3, the last of the 11 round keys. -/
theorem test_aes128Keyexp :
    stores 0x10
      { bench [(0x0, [0x2b, 0x7e, 0x15, 0x16, 0x28, 0xae, 0xd2, 0xa6, 0xab, 0xf7, 0x15, 0x88, 0x09, 0xcf, 0x4f, 0x3c])] with dst := 0x100, keylen := 16 }
      0x1A0 [0xd0, 0x14, 0xf9, 0xa8, 0xc9, 0xee, 0x25, 0x89, 0xe1, 0x3f, 0x0c, 0xc8, 0xb6, 0x63, 0x0c, 0xa6] = true := by decide +kernel

/-- G3. -/
theorem test_aesRnd :
    stores 0x11
      { bench [(0x0, [0x19, 0x3d, 0xe3, 0xbe, 0xa0, 0xf4, 0xe2, 0x2b, 0x9a, 0xc6, 0x8d, 0x2a, 0xe9, 0xf8, 0x48, 0x08]), (0x10, [0xa0, 0xfa, 0xfe, 0x17, 0x88, 0x54, 0x2c, 0xb1, 0x23, 0xa3, 0x39, 0x39, 0x2a, 0x6c, 0x76, 0x05])] with keyp := 0x10, dst := 0x20, keylen := 16, len := 16 }
      0x20 [0xa4, 0x9c, 0x7f, 0xf2, 0x68, 0x9f, 0x35, 0x2b, 0x6b, 0x5b, 0xea, 0x43, 0x02, 0x6a, 0x50, 0x49] = true := by decide +kernel

/-- G3. -/
theorem test_aesRndlast :
    stores 0x12
      { bench [(0x0, [0xeb, 0x40, 0xf2, 0x1e, 0x59, 0x2e, 0x38, 0x84, 0x8b, 0xa1, 0x13, 0xe7, 0x1b, 0xc3, 0x42, 0xd2]), (0x10, [0xd0, 0x14, 0xf9, 0xa8, 0xc9, 0xee, 0x25, 0x89, 0xe1, 0x3f, 0x0c, 0xc8, 0xb6, 0x63, 0x0c, 0xa6])] with keyp := 0x10, dst := 0x20, keylen := 16, len := 16 }
      0x20 [0x39, 0x25, 0x84, 0x1d, 0x02, 0xdc, 0x09, 0xfb, 0xdc, 0x11, 0x85, 0x97, 0x19, 0x6a, 0x0b, 0x32] = true := by decide +kernel

/-- G4, with the output over the key (G14). -/
theorem test_aes128Enc :
    stores 0x13
      { bench [(0x0, [0x00, 0x01, 0x02, 0x03, 0x04, 0x05, 0x06, 0x07, 0x08, 0x09, 0x0a, 0x0b, 0x0c, 0x0d, 0x0e, 0x0f]), (0x10, [0x00, 0x11, 0x22, 0x33, 0x44, 0x55, 0x66, 0x77, 0x88, 0x99, 0xaa, 0xbb, 0xcc, 0xdd, 0xee, 0xff])] with src := 0x10, keylen := 16, len := 16 }
      0x0 [0x69, 0xc4, 0xe0, 0xd8, 0x6a, 0x7b, 0x04, 0x30, 0xd8, 0xcd, 0xb7, 0x80, 0x70, 0xb4, 0xc5, 0x5a] = true := by decide +kernel

/-- G5, the last of the 32 subkeys. -/
theorem test_presentKeysched_128 :
    stores 0x120
      { bench [(0x0, [0x00, 0x01, 0x02, 0x03, 0x04, 0x05, 0x06, 0x07, 0x08, 0x09, 0x0a, 0x0b, 0x0c, 0x0d, 0x0e, 0x0f])] with dst := 0x100, keylen := 16 }
      0x1F8 [0x47, 0x76, 0x04, 0x55, 0xae, 0xbd, 0xa6, 0x84] = true := by decide +kernel

/-- V6. -/
theorem test_presentEnc_80 :
    stores 0x21
      { bench [] with src := 0x10, dst := 0x10, keylen := 10, len := 8 }
      0x10 [0x55, 0x79, 0xc1, 0x38, 0x7b, 0x22, 0x84, 0x45] = true := by decide +kernel

/-- G6. -/
theorem test_presentEnc_128 :
    stores 0x121
      { bench [(0x0, [0x00, 0x01, 0x02, 0x03, 0x04, 0x05, 0x06, 0x07, 0x08, 0x09, 0x0a, 0x0b, 0x0c, 0x0d, 0x0e, 0x0f]), (0x10, [0x01, 0x23, 0x45, 0x67, 0x89, 0xab, 0xcd, 0xef])] with src := 0x10, dst := 0x10, keylen := 16, len := 8 }
      0x10 [0x0e, 0x3d, 0xca, 0xff, 0x31, 0x1f, 0x18, 0x09] = true := by decide +kernel

/-- G6. -/
theorem test_presentDec_128 :
    stores 0x122
      { bench [(0x0, [0x00, 0x01, 0x02, 0x03, 0x04, 0x05, 0x06, 0x07, 0x08, 0x09, 0x0a, 0x0b, 0x0c, 0x0d, 0x0e, 0x0f]), (0x10, [0x0e, 0x3d, 0xca, 0xff, 0x31, 0x1f, 0x18, 0x09])] with src := 0x10, dst := 0x18, keylen := 16, len := 8 }
      0x18 [0x01, 0x23, 0x45, 0x67, 0x89, 0xab, 0xcd, 0xef] = true := by decide +kernel

/-- G7. -/
theorem test_chachaQr :
    stores 0x30
      { bench [(0x0, [0x11, 0x11, 0x11, 0x11, 0x04, 0x03, 0x02, 0x01, 0x43, 0x6f, 0x8d, 0x9b, 0x67, 0x45, 0x23, 0x01])] with len := 16 }
      0x0 [0xf4, 0x92, 0x2a, 0xea, 0xce, 0xf8, 0x1c, 0xcb, 0x2e, 0x47, 0x81, 0x45, 0xbb, 0xc4, 0x81, 0x58] = true := by decide +kernel

/-- G8. -/
theorem test_salsaQr :
    stores 0x38
      { bench [(0x0, [0x06, 0xc0, 0xe8, 0xe7, 0x7d, 0x41, 0xf9, 0xc4, 0xb2, 0xb4, 0x79, 0x64, 0x37, 0x71, 0xc6, 0x68])] with len := 16 }
      0x0 [0x2b, 0xd7, 0x76, 0xe8, 0xd5, 0xdf, 0x61, 0x93, 0x44, 0x02, 0x46, 0xf1, 0xa3, 0x41, 0x85, 0x94] = true := by decide +kernel

/-- G7: the core on the seeded state is the block, 8 rounds. -/
theorem test_chachaCore :
    stores 0x231
      { bench [(0x0, [0x65, 0x78, 0x70, 0x61, 0x6e, 0x64, 0x20, 0x33, 0x32, 0x2d, 0x62, 0x79, 0x74, 0x65, 0x20, 0x6b])] with dst := 0x40, len := 64 }
      0x40 [0x3e, 0x00, 0xef, 0x2f, 0x89, 0x5f, 0x40, 0xd6, 0x7f, 0x5b, 0xb8, 0xe8, 0x1f, 0x09, 0xa5, 0xa1] = true := by decide +kernel

/-- The example of R192. -/
theorem test_salsaCore :
    stores 0x39
      { bench [(0x0, [0xd3, 0x9f, 0x0d, 0x73, 0x4c, 0x37, 0x52, 0xb7, 0x03, 0x75, 0xde, 0x25, 0xbf, 0xbb, 0xea, 0x88, 0x31, 0xed, 0xb3, 0x30, 0x01, 0x6a, 0xb2, 0xdb, 0xaf, 0xc7, 0xa6, 0x30, 0x56, 0x10, 0xb3, 0xcf, 0x1f, 0xf0, 0x20, 0x3f, 0x0f, 0x53, 0x5d, 0xa1, 0x74, 0x93, 0x30, 0x71, 0xee, 0x37, 0xcc, 0x24, 0x4f, 0xc9, 0xeb, 0x4f, 0x03, 0x51, 0x9c, 0x2f, 0xcb, 0x1a, 0xf4, 0xf3, 0x58, 0x76, 0x68, 0x36])] with len := 64 }
      0x0 [0x6d, 0x2a, 0xb2, 0xa8, 0x9c, 0xf0, 0xf8, 0xee, 0xa8, 0xc4, 0xbe, 0xcb, 0x1a, 0x6e, 0xaa, 0x9a] = true := by decide +kernel

/-- G7, 12 rounds. -/
theorem test_chacha20Block_12 :
    stores 0x132
      { bench [] with dst := 0x40, keylen := 32, ivp := 0x20 }
      0x40 [0x9b, 0xf4, 0x9a, 0x6a, 0x07, 0x55, 0xf9, 0x53, 0x81, 0x1f, 0xce, 0x12, 0x5f, 0x26, 0x83, 0xd5] = true := by decide +kernel

/-- V7, the last 4 bytes. -/
theorem test_chacha20Block_rfc :
    stores 0x32
      { bench [(0x0, [0x00, 0x01, 0x02, 0x03, 0x04, 0x05, 0x06, 0x07, 0x08, 0x09, 0x0a, 0x0b, 0x0c, 0x0d, 0x0e, 0x0f, 0x10, 0x11, 0x12, 0x13, 0x14, 0x15, 0x16, 0x17, 0x18, 0x19, 0x1a, 0x1b, 0x1c, 0x1d, 0x1e, 0x1f]), (0x20, [0x00, 0x00, 0x00, 0x4a, 0x00, 0x00, 0x00, 0x00])] with dst := 0x40, keylen := 32, ivp := 0x20, ctrlo := 1, ctrhi := 0x09000000 }
      0x7C [0xa2, 0x50, 0x3c, 0x4e] = true := by decide +kernel

/-- G7. -/
theorem test_chacha20Xor :
    stores 0x33
      { bench [(0x30, [0xff])] with src := 0x30, dst := 0x40, len := 1, keylen := 32, ivp := 0x20 }
      0x40 [0x89] = true := by decide +kernel

/-- G8, 8 rounds. -/
theorem test_salsa20Block_8 :
    stores 0x23A
      { bench [(0x0, [0x80])] with dst := 0x40, keylen := 32, ivp := 0x20 }
      0x40 [0xb1, 0xf5, 0x99, 0xe9, 0xb0, 0xd9, 0x6d, 0xf4, 0x36, 0xae, 0x31, 0xf5, 0xef, 0x58, 0x95, 0x65] = true := by decide +kernel

/-- G8, `CTR` = 2^32. -/
theorem test_salsa20Block_ctr :
    stores 0x3A
      { bench [] with dst := 0x40, keylen := 32, ivp := 0x20, ctrhi := 1 }
      0x40 [0xb6, 0x5f, 0xc7, 0x77, 0xc4, 0xf9, 0x50, 0xec, 0x02, 0x74, 0xff, 0x0f, 0xfb, 0xb0, 0xa6, 0xe3] = true := by decide +kernel

/-- G8, the first keystream byte of row 1. -/
theorem test_salsa20Xor :
    stores 0x3B
      { bench [(0x0, [0x80])] with src := 0x30, dst := 0x40, len := 1, keylen := 16, ivp := 0x20 }
      0x40 [0x4d] = true := by decide +kernel

/-- G9. -/
theorem test_rc4Ksa :
    stores 0x40
      { bench [(0x0, [0x4b, 0x65, 0x79])] with dst := 0x100, keylen := 3 }
      0x1F0 [0xf8, 0x7d, 0xb1, 0xa6, 0xe8, 0x78, 0x6b, 0x63, 0xf9, 0xdd, 0x34, 0x7c, 0x0a, 0xd3, 0x3d, 0x93] = true := by decide +kernel

/-- P6 and G14: the output overlaps key and input. -/
theorem test_rc4Xor :
    stores 0x41
      { bench [(0x20, [0x4b, 0x65, 0x79, 0x50, 0x6c, 0x61, 0x69, 0x6e, 0x74, 0x65, 0x78, 0x74])] with keyp := 0x20, src := 0x23, dst := 0x20, keylen := 3, len := 9 }
      0x20 [0xbb, 0xf3, 0x16, 0xe8, 0xd9, 0x40, 0xaf, 0x0a, 0xd3, 0x65, 0x78, 0x74] = true := by decide +kernel

/-- G10, row 4. -/
theorem test_triviumXor :
    stores 0x48
      { bench [(0x9, [0x01])] with src := 0x20, dst := 0x30, ivp := 0x10, keylen := 10, len := 4 }
      0x30 [0x38, 0xeb, 0x86, 0xff] = true := by decide +kernel

/-- G11: the padding block of the empty message (V1). -/
theorem test_md5Compress :
    stores 0x50
      { bench [(0x0, [0x80]), (0x40, [0x01, 0x23, 0x45, 0x67, 0x89, 0xab, 0xcd, 0xef, 0xfe, 0xdc, 0xba, 0x98, 0x76, 0x54, 0x32, 0x10])] with ivp := 0x40, dst := 0x60, len := 64 }
      0x60 [0xd4, 0x1d, 0x8c, 0xd9, 0x8f, 0x00, 0xb2, 0x04, 0xe9, 0x80, 0x09, 0x98, 0xec, 0xf8, 0x42, 0x7e] = true := by decide +kernel

/-- G11. -/
theorem test_md5Hash :
    stores 0x51
      { bench [(0x0, [0x61, 0x62, 0x63])] with dst := 0x60, len := 3 }
      0x60 [0x90, 0x01, 0x50, 0x98, 0x3c, 0xd2, 0x4f, 0xb0, 0xd6, 0x96, 0x3f, 0x7d, 0x28, 0xe1, 0x7f, 0x72] = true := by decide +kernel

/-- G11. -/
theorem test_sha1Compress :
    stores 0x54
      { bench [(0x0, [0x80]), (0x40, [0x67, 0x45, 0x23, 0x01, 0xef, 0xcd, 0xab, 0x89, 0x98, 0xba, 0xdc, 0xfe, 0x10, 0x32, 0x54, 0x76, 0xc3, 0xd2, 0xe1, 0xf0])] with ivp := 0x40, dst := 0x60, len := 64 }
      0x60 [0xda, 0x39, 0xa3, 0xee, 0x5e, 0x6b, 0x4b, 0x0d, 0x32, 0x55, 0xbf, 0xef, 0x95, 0x60, 0x18, 0x90, 0xaf, 0xd8, 0x07, 0x09] = true := by decide +kernel

/-- V2 with 90_conflicts.md C2. -/
theorem test_sha1Hash :
    stores 0x55
      { bench [(0x0, [0x61, 0x62, 0x63])] with dst := 0x60, len := 3 }
      0x60 [0xa9, 0x99, 0x3e, 0x36, 0x47, 0x06, 0x81, 0x6a, 0xba, 0x3e, 0x25, 0x71, 0x78, 0x50, 0xc2, 0x6c, 0x9c, 0xd0, 0xd8, 0x9d] = true := by decide +kernel

/-- G11. -/
theorem test_sha256Compress :
    stores 0x58
      { bench [(0x0, [0x80]), (0x40, [0x6a, 0x09, 0xe6, 0x67, 0xbb, 0x67, 0xae, 0x85, 0x3c, 0x6e, 0xf3, 0x72, 0xa5, 0x4f, 0xf5, 0x3a, 0x51, 0x0e, 0x52, 0x7f, 0x9b, 0x05, 0x68, 0x8c, 0x1f, 0x83, 0xd9, 0xab, 0x5b, 0xe0, 0xcd, 0x19])] with ivp := 0x40, dst := 0x60, len := 64 }
      0x60 [0xe3, 0xb0, 0xc4, 0x42, 0x98, 0xfc, 0x1c, 0x14, 0x9a, 0xfb, 0xf4, 0xc8, 0x99, 0x6f, 0xb9, 0x24, 0x27, 0xae, 0x41, 0xe4, 0x64, 0x9b, 0x93, 0x4c, 0xa4, 0x95, 0x99, 0x1b, 0x78, 0x52, 0xb8, 0x55] = true := by decide +kernel

/-- V3. -/
theorem test_sha256Hash :
    stores 0x59
      { bench [(0x0, [0x61, 0x62, 0x63])] with dst := 0x60, len := 3 }
      0x60 [0xba, 0x78, 0x16, 0xbf, 0x8f, 0x01, 0xcf, 0xea, 0x41, 0x41, 0x40, 0xde, 0x5d, 0xae, 0x22, 0x23, 0xb0, 0x03, 0x61, 0xa3, 0x96, 0x17, 0x7a, 0x9c, 0xb4, 0x10, 0xff, 0x61, 0xf2, 0x00, 0x15, 0xad] = true := by decide +kernel

/-- G12. -/
theorem test_keccakF1600 :
    stores 0x60
      { bench [] with dst := 0x100, len := 200 }
      0x100 [0xe7, 0xdd, 0xe1, 0x40, 0x79, 0x8f, 0x25, 0xf1, 0x8a, 0x47, 0xc0, 0x33, 0xf9, 0xcc, 0xd5, 0x84] = true := by decide +kernel

/-- V4. -/
theorem test_sha3Hash :
    stores 0x61
      { bench [(0x0, [0x61, 0x62, 0x63])] with dst := 0x60, len := 3 }
      0x60 [0x3a, 0x98, 0x5d, 0xa7, 0x4f, 0xe2, 0x25, 0xb2, 0x04, 0x5c, 0x17, 0x2d, 0x6b, 0xd3, 0x90, 0xbd, 0x85, 0x5f, 0x08, 0x6e, 0x3e, 0x9d, 0x52, 0x5b, 0x46, 0xbf, 0xe2, 0x45, 0x11, 0x43, 0x15, 0x32] = true := by decide +kernel

/-- G12, padding. -/
theorem test_sha3Pad :
    (sha3Pad (List.replicate 134 0x61)).drop 134 = [0x06, 0x80] ∧ (sha3Pad (List.replicate 135 0x61)).drop 135 = [0x86] ∧
    (sha3Pad (List.replicate 136 0x61)).length = 272 := by decide +kernel

/-- G11, padding of 56 bytes. -/
theorem test_hashPad :
    (hashPad toBE64 (List.replicate 56 0x61)).drop 120 = [0, 0, 0, 0, 0, 0, 0x01, 0xC0] ∧
    (hashPad toLE64 (List.replicate 56 0x61)).drop 120 = [0xC0, 0x01, 0, 0, 0, 0, 0, 0] := by decide +kernel

/-- G5. -/
theorem test_presentLayers :
    sBoxLayer 0x0123456789ABCDEF = 0xC56B90AD3EF84712 ∧ pLayer 0x0000000000000002 = 0x0000000000010000 ∧
    pLayer 0x4000000000000000 = 0x0000800000000000 ∧ pLayerInv 0x00FF0F0F33335555 = 0x0123456789ABCDEF := by decide +kernel

/-- G7, G14: `LEN` = 0 is in range anywhere and writes nothing. -/
theorem test_zero_length :
    issues 0x33 { State.reset with src := 0xFFFFFFFF, dst := 0xFFFFFFFF, keylen := 32 }
      (fun t => t.status == 1 && t.mem == []) = true := by decide +kernel

/-! Witnesses: for every statement with hypotheses, states and operands that meet all of them together. `waits e` is the reset
state with one event waiting. Ranges end at `MEM_SIZE` = 0x1000, the last legal place. -/

def waits (e : HostEvent) : State := { State.reset with host := [e] }

theorem wit_EncodeOfDecode :
    decode 0x00000F61#32 = .ok (.sha3Hash 15) := by decide

theorem wit_EveryWordHasADefinedEffect :
    (∀ w : Word, (waits (.regWrite 0x00 w)).host = .regWrite 0x00 w :: []) ∧
    ((0x00001000#32).extractLsb' 12 20 ≠ 0 ∧ (0x80000013#32).extractLsb' 12 20 ≠ 0 ∧
      (0x00000062#32).extractLsb' 0 8 ∉ assignedOps) ∧
    (decode 0x00000222#32 = .ok (.presentDec 2) ∧ (Instr.presentDec 2).wellFormed = false) ∧
    (0x00000F61#32).extractLsb' 12 20 = 0 ∧ (0x00000F61#32).extractLsb' 0 8 ∈ assignedOps := ⟨fun _ => rfl, by decide, by decide, by decide⟩

theorem wit_StepIssuesTheDecodedCommand :
    (waits (.regWrite 0x00 0x13)).host = .regWrite 0x00 0x13 :: [] ∧ decode 0x13 = .ok (.aes128Enc 0) := by decide

theorem wit_HostRegisterWrites :
    ∀ off ∈ [0x04, 0x08, 0x0C, 0x10, 0x14, 0x18, 0x1C, 0x20, 0x24],
      (waits (.regWrite off 0xFFFFFFFF)).host = .regWrite off 0xFFFFFFFF :: [] := by decide

theorem wit_HostRegisterReads :
    ∀ off ∈ 0x00 :: [0x04, 0x08, 0x0C, 0x10, 0x14, 0x18, 0x1C, 0x20, 0x24], (waits (.regRead off)).host = .regRead off :: [] := by decide

theorem wit_HostMemoryAccess :
    ((waits (.memWrite 0xFFE [1, 2])).host = .memWrite 0xFFE [1, 2] :: [] ∧
      0xFFE + ([1, 2] : List Byte).length ≤ (waits (.memWrite 0xFFE [1, 2])).memSize) ∧
    (waits (.memRead 0xFFF 1)).host = .memRead 0xFFF 1 :: [] ∧ 0xFFF + 1 ≤ (waits (.memRead 0xFFF 1)).memSize := by decide

theorem wit_TransactionsOutsideTheInterfaceAreRefused :
    (∀ off ∈ [0x01, 0x06, 0x27, 0x28], (waits (.regWrite off 0)).host = .regWrite off 0 :: [] ∧
      (waits (.regRead off)).host = .regRead off :: [] ∧ (off % 4 ≠ 0 ∨ 0x28 ≤ off)) ∧
    ((waits (.memWrite 0x1000 [1])).host = .memWrite 0x1000 [1] :: [] ∧
      (waits (.memWrite 0x1000 [1])).memSize < 0x1000 + ([1] : List Byte).length) ∧
    (waits (.memRead 0xFFF 2)).host = .memRead 0xFFF 2 :: [] ∧ (waits (.memRead 0xFFF 2)).memSize < 0xFFF + 2 := by decide

/-- Log entry 5: an access of length 0. -/
theorem wit_TransactionsOutsideTheInterfaceAreRefused_empty :
    ((waits (.memWrite 0x1001 [])).host = .memWrite 0x1001 [] :: [] ∧
      (waits (.memWrite 0x1001 [])).memSize < 0x1001 + ([] : List Byte).length) ∧
    (waits (.memRead 0x1001 0)).host = .memRead 0x1001 0 :: [] ∧ (waits (.memRead 0x1001 0)).memSize < 0x1001 + 0 := by decide

theorem wit_ResetActionClearsRegisters :
    (waits (.reset [(0xFFF, 1)])).host = .reset [(0xFFF, 1)] :: [] ∧ Memory.wf [(0xFFF, 1)] ∧
    ∀ c ∈ ([(0xFFF, 1)] : Memory), c.1 < (waits (.reset [(0xFFF, 1)])).memSize := by decide

theorem wit_StepKeepsTheMachineInvariant :
    ({ bench [(0xFFF, [1])] with host := [.memWrite 0 [5]] }).Inv ∧
      step { bench [(0xFFF, [1])] with host := [.memWrite 0 [5]] } = .next (bench [(0, [5]), (0xFFF, [1])]) :=
  ⟨⟨by decide, by decide, by decide, by decide, by decide⟩, rfl⟩

theorem wit_FirstFailingCheckDecidesTheError :
    (∀ w : Word, (waits (.regWrite 0x00 w)).host = .regWrite 0x00 w :: []) ∧
    wordError 0x62 State.reset = some .illegalCommand ∧ wordError 0x221 State.reset = some .unsupportedParameter ∧
    wordError 0x13 State.reset = some .invalidKeyLength ∧ wordError 0x08 State.reset = some .invalidInputLength ∧
    wordError 0x59 { State.reset with dst := 0xFE1 } = some .accessFault ∧
    wordError 0x59 { State.reset with dst := 0xFE0 } = none := ⟨fun _ => rfl, by decide, by decide, by decide, by decide, by decide, by decide⟩

theorem wit_StatusFieldsOfACommand :
    Instr.nop 0 ≠ .clrstat 0 ∧ ({ State.reset with status := 0x100 } : State).status.getLsbD 8 = true ∧
    leaves 0x13 State.reset 0x111 = true ∧ (0x111 : Word).extractLsb' 4 4 ≠ 0 := by decide

theorem wit_CommandsStoreOnlyInTheirOutputRange :
    (∀ a ∈ [0xFEF, 0x1000], ∀ pn ∈ (({ State.reset with dst := 0xFF0 } : State).row (.aes128Enc 0)).writes,
      a < (({ State.reset with dst := 0xFF0 } : State).readReg pn.1).toNat ∨
        (({ State.reset with dst := 0xFF0 } : State).readReg pn.1).toNat + pn.2 ≤ a) ∧
    leaves 0x13 { State.reset with dst := 0xFF0 } 0x111 = true ∧ (0x111 : Word).extractLsb' 4 4 ≠ 0 := by decide

theorem wit_UnusedRegistersDoNotMatter :
    let s : State := { State.reset with len := 2 }
    let s' : State := { s with keyp := 7, keylen := 5, ivp := 0xFFFFFFFF, ctrlo := 1, ctrhi := 2 }
    s.mem = s'.mem ∧ s.memSize = s'.memSize ∧ s.status = s'.status ∧ s ≠ s' ∧
      ∀ r ∈ usedRegs (.gfMul 0), s.readReg r = s'.readReg r := by decide

theorem wit_NopCompletes :
    (15 : Param) ≠ 0 := by decide

theorem wit_ClrstatCompletes :
    (1 : Param) ≠ 0 ∧ Instr.clrstat 1 ≠ .clrstat 0 ∧ (0x100 : Word).getLsbD 8 = true ∧
    leaves 0x01 { State.reset with status := 0x151 } 0x000 = true ∧ (0x151 : Word).getLsbD 8 = true ∧ (0 : Word).getLsbD 8 = false := by decide

theorem wit_EachStateChangesOnlyByItsOwnTransaction :
    leaves 0x00 State.reset 0x001 = true ∧ (0x001 : Word) ≠ State.reset.status ∧
    performs (.memWrite 0xFFF [1]) State.reset (fun t => t.mem != State.reset.mem) = true ∧
    performs (.regWrite 0x24 1) State.reset (fun t => t.ctrhi != State.reset.ctrhi) = true ∧
    performs (.reset []) { State.reset with len := 1 } (fun t => t.len != 1) = true := by decide

theorem wit_GfMulCompletes :
    let s : State := { State.reset with src := 0xFFE, dst := 0xFFF, len := 2 }
    s.len = 2 ∧ s.inMem s.src 2 ∧ s.inMem s.dst 1 := by decide

theorem wit_Aes128KeyexpCompletes :
    let s : State := { State.reset with keyp := 0xFF0, dst := 0xF50, keylen := 16 }
    s.keylen = 16 ∧ s.inMem s.keyp 16 ∧ s.inMem s.dst 176 := by decide

theorem wit_AesRoundCommandsComplete :
    let s : State := { State.reset with keyp := 0xFF0, src := 0xFF0, dst := 0xFF0, keylen := 16, len := 16 }
    s.keylen = 16 ∧ s.len = 16 ∧ s.inMem s.keyp 16 ∧ s.inMem s.src 16 ∧ s.inMem s.dst 16 := by decide

theorem wit_PresentKeyschedCompletes_1 :
    let s : State := { State.reset with keyp := 0xFF6, dst := 0xF00, keylen := 10 }
    ((((0 : Param) = 0 ∧ s.keylen = 10) ∨ ((0 : Param) = 1 ∧ s.keylen = 16))) ∧ s.inMem s.keyp s.keylen.toNat ∧ s.inMem s.dst 256 := by decide

theorem wit_PresentKeyschedCompletes_2 :
    let s : State := { State.reset with keyp := 0xFF0, dst := 0xF00, keylen := 16 }
    ((((1 : Param) = 0 ∧ s.keylen = 10) ∨ ((1 : Param) = 1 ∧ s.keylen = 16))) ∧ s.inMem s.keyp s.keylen.toNat ∧ s.inMem s.dst 256 := by decide

theorem wit_PresentBlockCommandsComplete_1 :
    let s : State := { State.reset with keyp := 0xFF6, src := 0xFF8, dst := 0xFF8, keylen := 10, len := 8 }
    ((((0 : Param) = 0 ∧ s.keylen = 10) ∨ ((0 : Param) = 1 ∧ s.keylen = 16))) ∧ s.len = 8 ∧ s.inMem s.keyp s.keylen.toNat ∧ s.inMem s.src 8 ∧ s.inMem s.dst 8 := by decide

theorem wit_PresentBlockCommandsComplete_2 :
    let s : State := { State.reset with keyp := 0xFF0, src := 0xFF8, dst := 0xFF8, keylen := 16, len := 8 }
    ((((1 : Param) = 0 ∧ s.keylen = 10) ∨ ((1 : Param) = 1 ∧ s.keylen = 16))) ∧ s.len = 8 ∧ s.inMem s.keyp s.keylen.toNat ∧ s.inMem s.src 8 ∧ s.inMem s.dst 8 := by decide

theorem wit_QuarterRoundCommandsComplete :
    let s : State := { State.reset with src := 0xFF0, dst := 0xFF0, len := 16 }
    s.len = 16 ∧ s.inMem s.src 16 ∧ s.inMem s.dst 16 := by decide

theorem wit_CoreCommandsComplete :
    let s : State := { State.reset with src := 0xFC0, dst := 0xFC0, len := 64 }
    s.len = 64 ∧ s.inMem s.src 64 ∧ s.inMem s.dst 64 ∧ ∀ pr ∈ ([(0, 20), (1, 12), (2, 8)] : List (Param × Nat)),
      (pr.1 = 0 ∧ pr.2 = 20) ∨ (pr.1 = 1 ∧ pr.2 = 12) ∨ (pr.1 = 2 ∧ pr.2 = 8) := by decide

theorem wit_BlockCommandsComplete_1 :
    let s : State := { State.reset with keyp := 0xFF0, ivp := 0xFF8, dst := 0xFC0, keylen := 16, ctrlo := 0xFFFFFFFF, ctrhi := 0xFFFFFFFF }
    (s.keylen = 16 ∨ s.keylen = 32) ∧ s.inMem s.keyp s.keylen.toNat ∧ s.inMem s.ivp 8 ∧ s.inMem s.dst 64 ∧ ∀ pr ∈ ([(0, 20), (1, 12), (2, 8)] : List (Param × Nat)),
      (pr.1 = 0 ∧ pr.2 = 20) ∨ (pr.1 = 1 ∧ pr.2 = 12) ∨ (pr.1 = 2 ∧ pr.2 = 8) := by decide

theorem wit_BlockCommandsComplete_2 :
    let s : State := { State.reset with keyp := 0xFE0, ivp := 0xFF8, dst := 0xFC0, keylen := 32, ctrlo := 0xFFFFFFFF, ctrhi := 0xFFFFFFFF }
    (s.keylen = 16 ∨ s.keylen = 32) ∧ s.inMem s.keyp s.keylen.toNat ∧ s.inMem s.ivp 8 ∧ s.inMem s.dst 64 ∧ ∀ pr ∈ ([(0, 20), (1, 12), (2, 8)] : List (Param × Nat)),
      (pr.1 = 0 ∧ pr.2 = 20) ∨ (pr.1 = 1 ∧ pr.2 = 12) ∨ (pr.1 = 2 ∧ pr.2 = 8) := by decide

theorem wit_StreamXorCommandsComplete_1 :
    let s : State := { State.reset with keyp := 0xFF0, ivp := 0xFF8, src := 0xFFFFFFFF, dst := 0xFFFFFFFF, keylen := 16, len := 0 }
    (s.keylen = 16 ∨ s.keylen = 32) ∧ s.inMem s.keyp s.keylen.toNat ∧ s.inMem s.ivp 8 ∧ s.inMem s.src s.len.toNat ∧ s.inMem s.dst s.len.toNat ∧ ∀ pr ∈ ([(0, 20), (1, 12), (2, 8)] : List (Param × Nat)),
      (pr.1 = 0 ∧ pr.2 = 20) ∨ (pr.1 = 1 ∧ pr.2 = 12) ∨ (pr.1 = 2 ∧ pr.2 = 8) := by decide

theorem wit_StreamXorCommandsComplete_2 :
    let s : State := { State.reset with keyp := 0xFE0, ivp := 0xFF8, src := 0xFBF, dst := 0xFBF, keylen := 32, len := 65 }
    (s.keylen = 16 ∨ s.keylen = 32) ∧ s.inMem s.keyp s.keylen.toNat ∧ s.inMem s.ivp 8 ∧ s.inMem s.src s.len.toNat ∧ s.inMem s.dst s.len.toNat ∧ ∀ pr ∈ ([(0, 20), (1, 12), (2, 8)] : List (Param × Nat)),
      (pr.1 = 0 ∧ pr.2 = 20) ∨ (pr.1 = 1 ∧ pr.2 = 12) ∨ (pr.1 = 2 ∧ pr.2 = 8) := by decide

theorem wit_Rc4KsaCompletes_1 :
    let s : State := { State.reset with keyp := 0xFFF, dst := 0xF00, keylen := 1 }
    1 ≤ s.keylen.toNat ∧ s.keylen.toNat ≤ 256 ∧ s.inMem s.keyp s.keylen.toNat ∧ s.inMem s.dst 256 := by decide

theorem wit_Rc4KsaCompletes_2 :
    let s : State := { State.reset with keyp := 0xF00, dst := 0xF00, keylen := 256 }
    1 ≤ s.keylen.toNat ∧ s.keylen.toNat ≤ 256 ∧ s.inMem s.keyp s.keylen.toNat ∧ s.inMem s.dst 256 := by decide

theorem wit_Rc4XorCompletes_1 :
    let s : State := { State.reset with keyp := 0xFFF, src := 0xFFFFFFFF, dst := 0xFFFFFFFF, keylen := 1, len := 0 }
    1 ≤ s.keylen.toNat ∧ s.keylen.toNat ≤ 256 ∧ s.inMem s.keyp s.keylen.toNat ∧ s.inMem s.src s.len.toNat ∧ s.inMem s.dst s.len.toNat := by decide

theorem wit_Rc4XorCompletes_2 :
    let s : State := { State.reset with keyp := 0xF00, src := 0xFF7, dst := 0xFF7, keylen := 256, len := 9 }
    1 ≤ s.keylen.toNat ∧ s.keylen.toNat ≤ 256 ∧ s.inMem s.keyp s.keylen.toNat ∧ s.inMem s.src s.len.toNat ∧ s.inMem s.dst s.len.toNat := by decide

theorem wit_TriviumXorCompletes_1 :
    let s : State := { State.reset with keyp := 0xFF6, ivp := 0xFF6, src := 0xFFFFFFFF, dst := 0xFFFFFFFF, keylen := 10, len := 0 }
    s.keylen = 10 ∧ s.inMem s.keyp 10 ∧ s.inMem s.ivp 10 ∧ s.inMem s.src s.len.toNat ∧ s.inMem s.dst s.len.toNat := by decide

theorem wit_TriviumXorCompletes_2 :
    let s : State := { State.reset with keyp := 0xFF6, ivp := 0xFF6, src := 0xFF7, dst := 0xFF7, keylen := 10, len := 9 }
    s.keylen = 10 ∧ s.inMem s.keyp 10 ∧ s.inMem s.ivp 10 ∧ s.inMem s.src s.len.toNat ∧ s.inMem s.dst s.len.toNat := by decide

theorem wit_CompressCommandsComplete_md5 :
    let s : State := { State.reset with src := 0xFC0, dst := 0xFF0, ivp := 0xFF0, len := 64 }
    s.len = 64 ∧ s.inMem s.src 64 ∧ s.inMem s.ivp 16 ∧ s.inMem s.dst 16 := by decide

theorem wit_HashCommandsComplete_md5 :
    let s : State := { State.reset with src := 0, dst := 0xFF0, len := 0x1000 }
    s.inMem s.src s.len.toNat ∧ s.inMem s.dst 16 := by decide

theorem wit_CompressCommandsComplete_sha1 :
    let s : State := { State.reset with src := 0xFC0, dst := 0xFEC, ivp := 0xFEC, len := 64 }
    s.len = 64 ∧ s.inMem s.src 64 ∧ s.inMem s.ivp 20 ∧ s.inMem s.dst 20 := by decide

theorem wit_HashCommandsComplete_sha1 :
    let s : State := { State.reset with src := 0, dst := 0xFEC, len := 0x1000 }
    s.inMem s.src s.len.toNat ∧ s.inMem s.dst 20 := by decide

theorem wit_CompressCommandsComplete_sha256 :
    let s : State := { State.reset with src := 0xFC0, dst := 0xFE0, ivp := 0xFE0, len := 64 }
    s.len = 64 ∧ s.inMem s.src 64 ∧ s.inMem s.ivp 32 ∧ s.inMem s.dst 32 := by decide

theorem wit_HashCommandsComplete_sha256 :
    let s : State := { State.reset with src := 0, dst := 0xFE0, len := 0x1000 }
    s.inMem s.src s.len.toNat ∧ s.inMem s.dst 32 := by decide

theorem wit_KeccakF1600Completes :
    let s : State := { State.reset with src := 0xF38, dst := 0xF38, len := 200 }
    s.len = 200 ∧ s.inMem s.src 200 ∧ s.inMem s.dst 200 := by decide

theorem wit_Sha3HashCompletes :
    let s : State := { State.reset with src := 0xFFFFFFFF, dst := 0xFE0, len := 0 }
    s.inMem s.src s.len.toNat ∧ s.inMem s.dst 32 := by decide

theorem wit_GfMulFieldLaws :
    (0x53 : Byte) ≠ 0 ∧ gfMul 0x53 0xCA = 1 := by decide

theorem wit_GfTableVariantAgrees :
    (254 : Nat) < 255 := by decide

theorem wit_PermuteAddressesBitsFromTheTop :
    ([1, 3, 5, 7] : List Nat).length = 4 ∧ (∀ p ∈ [1, 3, 5, 7], 1 ≤ p ∧ p ≤ 8) ∧ ∀ i ∈ [1, 4], 1 ≤ i ∧ i ≤ 4 := by decide

theorem wit_SboxIsFieldInverseThenAffine :
    gfMul 0x53 0xCA = 1 := by decide

theorem wit_AesLayersByRowAndColumn :
    (3 : Nat) < 4 ∧ (0 : Nat) < 4 := by decide

theorem wit_KeyExpansionRecurrence :
    (List.replicate 16 (0 : Byte)).length = 16 ∧ (3 : Nat) < 4 ∧ ∀ i ∈ [4, 43], 4 ≤ i ∧ i < 44 := by decide

theorem wit_AesEncryptFromStageCommands :
    (List.replicate 16 (0 : Byte)).length = 16 ∧ (List.range 16).length = 16 := by decide

/-- An injectivity statement's hypotheses are met with `a` = `b` alone. -/
theorem wit_AesEncryptIsInjective :
    let key : List Byte := List.replicate 16 0xFF
    let a : List Byte := [0, 1, 2, 3, 4, 5, 6, 7, 8, 9, 10, 11, 12, 13, 14, 15]
    key.length = 16 ∧ a.length = 16 ∧ aesEncrypt a key = aesEncrypt a key := ⟨rfl, rfl, rfl⟩

theorem wit_PresentDecryptUndoesEncrypt :
    ∀ pk ∈ ([(0, List.replicate 10 0xFF), (1, List.replicate 16 0xFF)] : List (Param × List Byte)),
      (pk.1 = 0 ∧ pk.2.length = 10) ∨ (pk.1 = 1 ∧ pk.2.length = 16) := by decide

theorem wit_PresentDecAfterEncRestoresMemory_1 :
    let s : State := { State.reset with keyp := 0xFEE, src := 0xFF8, dst := 0xFF8, keylen := 10, len := 8 }
    ((((0 : Param) = 0 ∧ s.keylen = 10) ∨ ((0 : Param) = 1 ∧ s.keylen = 16))) ∧ s.len = 8 ∧ s.dst = s.src ∧ s.inMem s.keyp s.keylen.toNat ∧ s.inMem s.src 8 ∧ Apart s.keyp s.keylen.toNat s.src 8 := by decide

theorem wit_PresentDecAfterEncRestoresMemory_2 :
    let s : State := { State.reset with keyp := 0xFE8, src := 0xFF8, dst := 0xFF8, keylen := 16, len := 8 }
    ((((1 : Param) = 0 ∧ s.keylen = 10) ∨ ((1 : Param) = 1 ∧ s.keylen = 16))) ∧ s.len = 8 ∧ s.dst = s.src ∧ s.inMem s.keyp s.keylen.toNat ∧ s.inMem s.src 8 ∧ Apart s.keyp s.keylen.toNat s.src 8 := by decide

theorem wit_PresentLayersByBitAndNibble :
    (∀ i ∈ [0, 62, 63], i < 64) ∧ ∀ j ∈ [0, 15], j < 16 := by decide

theorem wit_StreamBlocksAreIndependent :
    (0 : Nat) < 1 ∧ (List.replicate 128 (0 : Byte)).length = 64 * 2 := by simp

theorem wit_StreamCommandTwiceRestoresMemory_1 :
    let s : State := { State.reset with keyp := 0, ivp := 32, src := 0xFBF, dst := 0xFBF, keylen := 32, len := 65 }
    s.dst = s.src ∧ s.inMem s.src s.len.toNat ∧ s.inMem s.keyp s.keylen.toNat ∧ Apart s.keyp s.keylen.toNat s.src s.len.toNat ∧ Instr.salsa20Xor 2 ∈ [Instr.chacha20Xor 0, .chacha20Xor 1, .chacha20Xor 2, .salsa20Xor 0, .salsa20Xor 1, .salsa20Xor 2] ∧ (s.keylen = 16 ∨ s.keylen = 32) ∧ s.inMem s.ivp 8 ∧ Apart s.ivp 8 s.src s.len.toNat := by decide

theorem wit_StreamCommandTwiceRestoresMemory_2 :
    let s : State := { State.reset with keyp := 0, src := 0x100, dst := 0x100, keylen := 256, len := 0xF00 }
    s.dst = s.src ∧ s.inMem s.src s.len.toNat ∧ s.inMem s.keyp s.keylen.toNat ∧ Apart s.keyp s.keylen.toNat s.src s.len.toNat ∧ 1 ≤ s.keylen.toNat ∧ s.keylen.toNat ≤ 256 := by decide

theorem wit_StreamCommandTwiceRestoresMemory_3 :
    let s : State := { State.reset with keyp := 0, ivp := 10, src := 20, dst := 20, keylen := 10, len := 1 }
    s.dst = s.src ∧ s.inMem s.src s.len.toNat ∧ s.inMem s.keyp s.keylen.toNat ∧ Apart s.keyp s.keylen.toNat s.src s.len.toNat ∧ s.keylen = 10 ∧ s.inMem s.ivp 10 ∧ Apart s.ivp 10 s.src s.len.toNat := by decide

theorem wit_Rc4StateIsAPermutation :
    let t : Rc4State := ⟨(List.range 256).map (BitVec.ofNat 8), 0, 0⟩
    t.S.Perm ((List.range 256).map (BitVec.ofNat 8)) := List.Perm.refl _

theorem wit_TriviumLoadAndClockByBit :
    (List.replicate 10 (0xFF : Byte)).length = 10 ∧ (∀ k ∈ [1, 80, 81, 93, 94, 173, 174, 285, 286, 288], 1 ≤ k ∧ k ≤ 288) ∧
    ∀ k ∈ [2, 93, 95, 177, 179, 288], 2 ≤ k ∧ k ≤ 288 ∧ k ≠ 94 ∧ k ≠ 178 := by decide

theorem wit_HashPaddingShape :
    (List.replicate 56 (0x61 : Byte)).length < 2 ^ 61 ∧ (56 < 57 ∧ 57 + 8 < (hashPad toBE64 (List.replicate 56 0x61)).length) := by decide +kernel

theorem wit_Sha3PaddingAndSingleBlock :
    (List.replicate 135 (0x61 : Byte)).length ≤ 135 ∧ 135 < (sha3Pad (List.replicate 135 0x61)).length := by decide +kernel

theorem wit_ScheduleRecurrences :
    (15 : Nat) < 16 ∧ (∀ i ∈ [16, 79], 16 ≤ i ∧ i < 80) ∧ ∀ i ∈ [16, 63], 16 ≤ i ∧ i < 64 := by decide

theorem wit_HashIsChainedCompression :
    (List.replicate 64 (0 : Byte)).length = 64 ∧ (List.replicate 55 (0 : Byte)).length ≤ 55 := by decide

theorem wit_KeccakStepsByLane :
    (List.replicate 25 (0 : DWord)).length = 25 ∧ (4 : Nat) < 5 := by decide

/-! Witnesses of the clauses that write the rules' equations out. -/

theorem wit_PresentKeyschedCompletes_bits :
    (75 < 76 ∧ 119 < 120) ∧ ((List.replicate 10 (0xFF : Byte)).length = 10 ∧ (List.replicate 16 (0xFF : Byte)).length = 16) ∧
    31 < 32 ∧ 9 < 10 ∧ 15 < 16 := by decide

theorem wit_PresentBlockCommandsComplete_rounds :
    (((0 : Param) = 0 ∧ (List.replicate 10 (0xFF : Byte)).length = 10)) ∧
    (1 : Param) = 1 ∧ (List.replicate 16 (0xFF : Byte)).length = 16 := by decide

theorem wit_CoreCommandsComplete_rounds :
    (List.replicate 16 (1 : Word)).length = 16 ∧ 3 < 4 ∧ 15 < 16 := by decide

theorem wit_BlockCommandsComplete_seed :
    (List.replicate 16 (1 : Byte)).length = 16 ∧ (List.replicate 32 (1 : Byte)).length = 32 ∧
    (List.replicate 8 (1 : Byte)).length = 8 ∧ 3 < 4 ∧ 1 < 2 := by decide

theorem wit_StreamXorCommandsComplete_bytes :
    (∀ c : DWord, (chachaBlock 20 [] [] c).length = 64) ∧ 64 < (List.replicate 65 (0 : Byte)).length := ⟨fun _ => chachaBlock_length _ _ _ _, by rw [List.length_replicate]; decide⟩

theorem wit_Rc4KsaCompletes_turn :
    ((List.range 256).map (BitVec.ofNat 8)).length = 256 ∧ 255 < 256 := ⟨by rw [List.length_map, List.length_range], by decide⟩

theorem wit_Rc4XorCompletes_step :
    (Rc4State.mk ((List.range 256).map (BitVec.ofNat 8)) 255 255).S.length = 256 ∧ 255 < 256 ∧
    0 < ([7] : List Byte).length := ⟨by rw [List.length_map, List.length_range], by decide, by decide⟩

theorem wit_TriviumXorCompletes_bit :
    1 < ([7, 8] : List Byte).length ∧ 7 < 8 := by decide

theorem wit_ScheduleRecurrences_rounds :
    (∀ i ∈ [0, 15, 16, 31, 32, 47, 48, 63], i < 64) ∧ ∀ i ∈ [0, 19, 20, 39, 40, 59, 60, 79], i < 80 := by decide

theorem wit_Sha3PaddingAndSingleBlock_absorb :
    (List.replicate 200 (1 : Byte)).length = 200 ∧ (List.replicate 136 (1 : Byte)).length = 136 := ⟨List.length_replicate, List.length_replicate⟩

end Sys2Proof.Tests
end

namespace Sys2Proof.Machine

/-! ### One normal form for the 29 commands

Every arm of `exec` is the checks of a row of R88 followed by one write of `MEM` and one of `STATUS` (R84); the commands differ
only in the row, in the bytes computed and in the `STATUS` left behind. -/

/-- The row of R88 that a command is checked against. -/
def operandsOf (s : State) : Instr → Operands
  | .nop p => operandsNop p s
  | .clrstat p => operandsClrstat p s
  | .gfMul p => operandsGfMul p s
  | .aes128Keyexp p => operandsAes128Keyexp p s
  | .aesRnd p | .aesRndlast p | .aes128Enc p => operandsAesBlock p s
  | .presentKeysched p => operandsPresentKeysched p s
  | .presentEnc p | .presentDec p => operandsPresentBlock p s
  | .chachaQr p | .salsaQr p => operandsQr p s
  | .chachaCore p | .salsaCore p => operandsCore p s
  | .chacha20Block p | .salsa20Block p => operandsBlock p s
  | .chacha20Xor p | .salsa20Xor p => operandsStreamXor p s
  | .rc4Ksa p => operandsRc4Ksa p s
  | .rc4Xor p => operandsRc4Xor p s
  | .triviumXor p => operandsTriviumXor p s
  | .md5Compress p => operandsCompress 16 p s
  | .sha1Compress p => operandsCompress 20 p s
  | .sha256Compress p => operandsCompress 32 p s
  | .md5Hash p => operandsHash 16 p s
  | .sha1Hash p => operandsHash 20 p s
  | .sha256Hash p | .sha3Hash p => operandsHash 32 p s
  | .keccakF1600 p => operandsKeccakF1600 p s

/-- The bytes a command computes from the block counter and the bytes it has read; none for the system commands. -/
def outputOf (ctr : DWord) (x : Inputs) : Instr → List Byte
  | .nop _ | .clrstat _ => []
  | .gfMul _ => [gfMul (x.src.getD 0 0) (x.src.getD 1 0)]
  | .aes128Keyexp _ => (keyExpansion x.key).flatten
  | .aesRnd _ => aesRound x.src x.key
  | .aesRndlast _ => aesFinalRound x.src x.key
  | .aes128Enc _ => aesEncrypt x.src x.key
  | .presentKeysched p => (presentKeySchedule p x.key).flatMap toBE64
  | .presentEnc p => toBE64 (presentEncrypt p (be64 x.src) x.key)
  | .presentDec p => toBE64 (presentDecrypt p (be64 x.src) x.key)
  | .chachaQr _ => quadBytes (chachaQr (quadOfBytes x.src))
  | .chachaCore p => bytesLE (chachaCore (roundCount p) (wordsLE 16 x.src))
  | .chacha20Block p => chachaBlock (roundCount p) x.key x.iv ctr
  | .chacha20Xor p => streamXor (chachaBlock (roundCount p) x.key x.iv) ctr x.src
  | .salsaQr _ => quadBytes (salsaQr (quadOfBytes x.src))
  | .salsaCore p => bytesLE (salsaCore (roundCount p) (wordsLE 16 x.src))
  | .salsa20Block p => salsaBlock (roundCount p) x.key x.iv ctr
  | .salsa20Xor p => streamXor (salsaBlock (roundCount p) x.key x.iv) ctr x.src
  | .rc4Ksa _ => rc4Ksa x.key
  | .rc4Xor _ => rc4Xor x.src x.key
  | .triviumXor _ => triviumXor x.src x.key x.iv
  | .md5Compress _ => bytesLE (md5Compress (wordsLE 4 x.iv) x.src)
  | .md5Hash _ => md5 x.src
  | .sha1Compress _ => bytesBE (sha1Compress (wordsBE 5 x.iv) x.src)
  | .sha1Hash _ => sha1 x.src
  | .sha256Compress _ => bytesBE (sha256Compress (wordsBE 8 x.iv) x.src)
  | .sha256Hash _ => sha256 x.src
  | .keccakF1600 _ => keccakFBytes x.src
  | .sha3Hash _ => sha3 x.src

/-- The `STATUS` a command leaves when no check fails (R84, R281). -/
def statusAfter (st : Word) : Instr → Word
  | .clrstat _ => 0
  | _ => statusOnSuccess st

/-- The bytes a command writes in a state. -/
def outputIn (s : State) (i : Instr) : List Byte := outputOf s.ctr ((operandsOf s i).inputs s.mem) i

/-- The state a command leaves when no check fails. -/
def stateAfter (i : Instr) (s : State) : State :=
  (s.setMem (s.mem.writeRange (operandsOf s i).dst (outputIn s i))).setStatus (statusAfter s.status i)

theorem statusAfter_of_ne_clrstat {i : Instr} (st : Word) (h : ∀ p, i ≠ .clrstat p) :
    statusAfter st i = statusOnSuccess st := by
  cases i
  case clrstat p => exact absurd rfl (h p)
  all_goals rfl

/-- Every command but `CLRSTAT` is one `runCommand`; `NOP` is the one without ranges. -/
theorem exec_eq_runCommand {i : Instr} (s : State) (h : ∀ p, i ≠ .clrstat p) :
    exec i s = runCommand (operandsOf s i) (fun x => outputOf s.ctr x i) s := by
  cases i
  case clrstat p => exact absurd rfl (h p)
  all_goals rfl

/-- Every command is the checks of its row, which decide between an error and one state that can be given beforehand. -/
theorem exec_eq_checked (i : Instr) (s : State) :
    exec i s = checked (operandsOf s i) s fun _ => stateAfter i s := by
  by_cases h : ∃ p, i = .clrstat p
  · obtain ⟨p, rfl⟩ := h
    rfl
  · have hne := not_exists.1 h
    rw [exec_eq_runCommand s hne, stateAfter, statusAfter_of_ne_clrstat _ hne]
    rfl

/-- What a command answers: one of two next states. -/
theorem exec_cases (i : Instr) (s : State) :
    (∃ e, (operandsOf s i).firstError s.memSize = some e ∧ exec i s = .next (s.raise e)) ∨
      ((operandsOf s i).firstError s.memSize = none ∧ exec i s = .next (stateAfter i s)) := by
  rw [exec_eq_checked]
  exact checked_cases _ _ _

@[simp] theorem stateAfter_status (i : Instr) (s : State) : (stateAfter i s).status = statusAfter s.status i := rfl

@[simp] theorem stateAfter_mem (i : Instr) (s : State) :
    (stateAfter i s).mem = s.mem.writeRange (operandsOf s i).dst (outputIn s i) := rfl

@[simp] theorem stateAfter_memSize (i : Instr) (s : State) : (stateAfter i s).memSize = s.memSize := rfl

@[simp] theorem Memory.readRange_rangeAt_length (m : Memory) (p : Word) (n : Nat) :
    (m.readRange (rangeAt p n)).length = n :=
  m.readBytes_length _ _

/-- The output of a command fills its output range (R88). -/
theorem outputIn_length {i : Instr} {s : State} {r : Range} (h : (operandsOf s i).dst = some r) :
    (outputIn s i).length = r.len := by
  have chacha (k) (key iv : List Byte) := streamXor_length (chachaBlock_length k key iv)
  have salsa (k) (key iv : List Byte) := streamXor_length (salsaBlock_length k key iv)
  cases i <;> cases h <;>
    simp [outputIn, outputOf, operandsOf, operandsStreamXor, operandsRc4Xor, operandsTriviumXor, Operands.inputs,
      chacha, salsa, -List.length_flatten]

/-! ### The values of `STATUS` -/

theorem statusOnError_mem_legalStatus (e : ErrorCode) : statusOnError e ∈ legalStatus := by
  cases e <;> decide

theorem statusOnSuccess_eq (st : Word) : statusOnSuccess st = if st.getLsbD 8 then 0x101 else 0x001 := by
  unfold statusOnSuccess
  rw [show (0x00000100 : Word) = BitVec.twoPow 32 8 from rfl, BitVec.and_twoPow]
  split <;> rfl

theorem statusOnSuccess_mem_legalStatus (st : Word) : statusOnSuccess st ∈ legalStatus := by
  rw [statusOnSuccess_eq]
  split <;> decide

theorem statusOnSuccess_done (st : Word) : (statusOnSuccess st).getLsbD 0 = true := by
  simp [statusOnSuccess]

theorem statusOnSuccess_sticky (st : Word) : (statusOnSuccess st).getLsbD 8 = st.getLsbD 8 := by
  simp [statusOnSuccess]

theorem statusOnSuccess_err (st : Word) : (statusOnSuccess st).extractLsb' 4 4 = 0 := by
  rw [statusOnSuccess_eq]
  split <;> decide

/-- A command that passes its checks leaves 0 or the status of a success. -/
theorem statusAfter_cases (st : Word) (i : Instr) : statusAfter st i = 0 ∨ statusAfter st i = statusOnSuccess st := by
  cases i
  case clrstat => exact .inl rfl
  all_goals exact .inr rfl

theorem statusAfter_mem_legalStatus (st : Word) (i : Instr) : statusAfter st i ∈ legalStatus := by
  rcases statusAfter_cases st i with h | h <;> rw [h]
  · decide
  · exact statusOnSuccess_mem_legalStatus st

theorem statusAfter_err (st : Word) (i : Instr) : (statusAfter st i).extractLsb' 4 4 = 0 := by
  rcases statusAfter_cases st i with h | h <;> rw [h]
  · decide
  · exact statusOnSuccess_err st

theorem statusOnError_done (e : ErrorCode) : (statusOnError e).getLsbD 0 = true := by
  cases e <;> decide

theorem statusOnError_sticky (e : ErrorCode) : (statusOnError e).getLsbD 8 = true := by
  cases e <;> decide

theorem statusOnError_err (e : ErrorCode) : (statusOnError e).extractLsb' 4 4 = e.code := by
  cases e <;> decide

theorem ErrorCode.code_toNat_le (e : ErrorCode) : e.code.toNat ≤ 5 := by
  cases e <;> decide

/-- Of the commands that pass their checks only `CLRSTAT` with `PARAM` 0 does not leave the status of a success. -/
theorem statusAfter_of_legal {i : Instr} {s : State} (hlegal : (operandsOf s i).firstError s.memSize = none)
    (hi : i ≠ .clrstat 0) : statusAfter s.status i = statusOnSuccess s.status := by
  refine statusAfter_of_ne_clrstat _ ?_
  rintro p rfl
  obtain ⟨hparam, -⟩ := (Operands.firstError_eq_none_iff _ _).1 hlegal
  have hp : p = 0 := by simpa [operandsOf, operandsClrstat, paramOnly] using hparam
  exact hi (hp ▸ rfl)

/-! ### The invariant

It speaks of `STATUS`, `MEM` and `MEM_SIZE` alone, so that one rule for each of the writes of `STATUS` and of `MEM` carries it
over every event. -/

theorem State.Inv.congr {s t : State} (h : s.Inv) (hstatus : t.status = s.status) (hmem : t.mem = s.mem)
    (hsize : t.memSize = s.memSize) : t.Inv where
  status := hstatus ▸ h.status
  memWf := hmem ▸ h.memWf
  memInside := by
    rw [hmem, hsize]
    exact h.memInside
  sizeLow := hsize ▸ h.sizeLow
  sizeHigh := hsize ▸ h.sizeHigh

theorem State.Inv.setStatus {s : State} (h : s.Inv) {v : Word} (hv : v ∈ legalStatus) : (s.setStatus v).Inv where
  status := hv
  memWf := h.memWf
  memInside := h.memInside
  sizeLow := h.sizeLow
  sizeHigh := h.sizeHigh

theorem State.Inv.raise {s : State} (h : s.Inv) (e : ErrorCode) : (s.raise e).Inv :=
  h.setStatus (statusOnError_mem_legalStatus e)

/-- A store inside `MEM` (R62), or of nothing at all, keeps the invariant. -/
theorem State.Inv.setMem_writeBytes {s : State} (h : s.Inv) {a : Nat} {v : List Byte}
    (hin : v.length = 0 ∨ a + v.length ≤ s.memSize) : (s.setMem (s.mem.writeBytes a v)).Inv where
  status := h.status
  memWf := Memory.wf_writeBytes h.memWf a v
  memInside c hc := by
    rw [setMem_memSize]
    rcases Memory.mem_writeBytes hc with hstored | hold
    · omega
    · exact h.memInside c hold
  sizeLow := h.sizeLow
  sizeHigh := h.sizeHigh

/-- Reset gives the invariant to any content of `MEM` that is canonical and inside `MEM` (R341). -/
theorem State.launch_inv {n : Nat} {m : Memory} (host : List HostEvent) (hwf : m.wf) (hin : ∀ c ∈ m, c.1 < n)
    (hlow : 1 ≤ n) (hhigh : n ≤ Config.maxMemSize) : (State.launch n m host).Inv where
  status := List.mem_cons_self
  memWf := hwf
  memInside := hin
  sizeLow := hlow
  sizeHigh := hhigh

/-- A command that passes its checks stores inside `MEM`. -/
theorem outputIn_inside {i : Instr} {s : State} {r : Range} (hlegal : (operandsOf s i).firstError s.memSize = none)
    (hr : (operandsOf s i).dst = some r) :
    (outputIn s i).length = 0 ∨ r.base + (outputIn s i).length ≤ s.memSize := by
  obtain ⟨-, -, -, hranges⟩ := (Operands.firstError_eq_none_iff _ _).1 hlegal
  rw [outputIn_length hr, ← Range.inside_iff]
  exact hranges r (by simp [Operands.ranges, hr])

theorem State.Inv.stateAfter {i : Instr} {s : State} (h : s.Inv)
    (hlegal : (operandsOf s i).firstError s.memSize = none) : (stateAfter i s).Inv := by
  refine State.Inv.setStatus ?_ (statusAfter_mem_legalStatus _ i)
  cases hr : (operandsOf s i).dst with
  | none => exact h
  | some r => exact h.setMem_writeBytes (outputIn_inside hlegal hr)

theorem exec_inv {i : Instr} {s t : State} (h : s.Inv) (ht : exec i s = .next t) : t.Inv := by
  rcases exec_cases i s with ⟨e, -, hexec⟩ | ⟨hlegal, hexec⟩ <;> rw [hexec] at ht <;> cases ht
  · exact h.raise e
  · exact h.stateAfter hlegal

theorem issue_inv {w : Word} {s t : State} (h : s.Inv) (ht : issue w s = .next t) : t.Inv := by
  cases hw : decode w with
  | ok i => exact exec_inv h (issue_of_ok hw ▸ ht)
  | error r =>
    rw [issue_of_error hw] at ht
    cases ht
    exact h.raise _

theorem perform_inv {e : HostEvent} {s t : State} (h : s.Inv) (ht : perform e s = .next t) : t.Inv := by
  cases e with
  | regWrite off v =>
    rcases hostRegWrite_next ht with ⟨-, hissue⟩ | ⟨r, -, -, rfl⟩
    · exact issue_inv h hissue
    · exact h.congr (by simp) (by simp) (by simp)
  | regRead off =>
    obtain ⟨r, -, rfl⟩ := hostRegRead_next ht
    exact h.congr rfl rfl rfl
  | memWrite addr v =>
    obtain ⟨hin, rfl⟩ := hostMemWrite_next ht
    exact h.setMem_writeBytes (.inr hin)
  | memRead addr n =>
    obtain ⟨-, rfl⟩ := hostMemRead_next ht
    exact h.congr rfl rfl rfl
  | reset memInit =>
    cases ht
    obtain ⟨hwf, hin⟩ := Memory.ofCells_wf s.memSize memInit
    exact State.launch_inv _ hwf hin h.sizeLow h.sizeHigh

/-- Settles O13: the invariant goes through every event, and for a command through its checks, which keep its store inside
`MEM`. -/
theorem stepKeepsTheMachineInvariant : Obligations.StepKeepsTheMachineInvariant := by
  intro s t hs ht
  unfold step at ht
  split at ht
  · cases ht
    exact hs
  · next e rest _ => exact perform_inv (hs.congr (t := s.takeEvent rest) rfl rfl rfl) ht

/-- Settles O14: reset is `launch` with no byte listed. -/
theorem resetSatisfiesTheMachineInvariant : Obligations.ResetSatisfiesTheMachineInvariant :=
  State.launch_inv [] Memory.wf_nil (by simp) (by decide) (by decide)

/-- Settles O12. -/
theorem resetStateRegistersAreZero : Obligations.ResetStateRegistersAreZero := by
  unfold Obligations.ResetStateRegistersAreZero
  decide

/-! ### What a command writes and what it reads -/

/-- Settles O15: an error writes `STATUS` alone, a success `MEM` and `STATUS`. -/
theorem commandsNeverWriteOperandRegisters : Obligations.CommandsNeverWriteOperandRegisters := by
  intro i s
  rcases exec_cases i s with ⟨e, -, hexec⟩ | ⟨-, hexec⟩
  · exact ⟨_, hexec, by simp [SameRegisters], by simp [SameSurroundings]⟩
  · exact ⟨_, hexec, by simp [SameRegisters, stateAfter], by simp [SameSurroundings, stateAfter]⟩

/-- Settles O17: the three fields are those of `statusOnError` when a check fails and of `statusAfter` when none does. -/
theorem statusFieldsOfACommand : Obligations.StatusFieldsOfACommand := by
  intro i s
  rcases exec_cases i s with ⟨e, -, hexec⟩ | ⟨hlegal, hexec⟩ <;> refine ⟨_, hexec, ?_, ?_⟩
  · exact fun _ => ⟨statusOnError_done e, fun _ => statusOnError_sticky e⟩
  · rw [raise_status, statusOnError_err]
    exact fun _ => ⟨statusOnError_sticky e, e.code_toNat_le⟩
  · intro hi
    rw [stateAfter_status, statusAfter_of_legal hlegal hi]
    exact ⟨statusOnSuccess_done _, fun h => (statusOnSuccess_sticky _).trans h⟩
  · exact fun herr => absurd (statusAfter_err s.status i) herr

/-- The operands of a command depend on the registers of its row of R88 alone. -/
theorem operandsOf_congr {i : Instr} {s s' : State} (h : ∀ r ∈ usedRegs i, s.readReg r = s'.readReg r) :
    operandsOf s i = operandsOf s' i := by
  cases i
  case nop | clrstat => rfl
  all_goals
    simp [usedRegs, tableRow] at h
    simp [operandsOf, operandsGfMul, operandsAes128Keyexp, operandsAesBlock, operandsPresentKeysched,
      operandsPresentBlock, operandsQr, operandsCore, operandsBlock, operandsStreamXor, operandsRc4Ksa, operandsRc4Xor,
      operandsTriviumXor, operandsCompress, operandsHash, operandsKeccakF1600, h]

/-- The output of a command depends on its input bytes and, where its row of R88 reads `CTR`, on the block counter. -/
theorem outputOf_congr {i : Instr} {s s' : State} (h : ∀ r ∈ usedRegs i, s.readReg r = s'.readReg r) (x : Inputs) :
    outputOf s.ctr x i = outputOf s'.ctr x i := by
  cases i
  case chacha20Block | chacha20Xor | salsa20Block | salsa20Xor =>
    have hlo : s.ctrlo = s'.ctrlo := h .ctrlo (by simp [usedRegs, tableRow])
    have hhi : s.ctrhi = s'.ctrhi := h .ctrhi (by simp [usedRegs, tableRow])
    rw [State.ctr, State.ctr, hlo, hhi]
  all_goals simp only [outputOf]

/-- Settles O19: the checks, the inputs and the output are the same in both states. -/
theorem unusedRegistersDoNotMatter : Obligations.UnusedRegistersDoNotMatter := by
  intro i s s' hmem hsize hstatus hregs
  have hops := operandsOf_congr hregs
  have hout : outputIn s i = outputIn s' i := by
    rw [outputIn, outputIn, hops, hmem, outputOf_congr hregs]
  rw [exec_eq_checked, exec_eq_checked, hops, checked, checked, hsize]
  cases (operandsOf s' i).firstError s'.memSize with
  | some e => exact ⟨_, _, rfl, rfl, hmem, rfl⟩
  | none => exact ⟨_, _, rfl, rfl, by simp [hops, hmem, hout], by simp [hstatus]⟩

end Sys2Proof.Machine

namespace Sys2Proof.Machine

/-! ### The host's transactions

One rule for each transaction of R51, as the step performs it: a register access goes through the register map (R21), a memory
access through the bound `addr + n <= MEM_SIZE`. -/

/-- R51 and U3: there is no register at such an offset. -/
theorem regAt_eq_none {off : Nat} (h : off % 4 ≠ 0 ∨ 0x28 ≤ off) : regAt off = none := by
  unfold regAt
  split
  case h_11 => rfl
  all_goals omega

theorem regAt_eq_cmd {off : Nat} (h : regAt off = some .cmd) : off = 0x00 := by
  unfold regAt at h
  split at h
  case h_1 => rfl
  all_goals cases h

@[simp] theorem takeEvent_readReg (s : State) (rest : List HostEvent) (r : Reg) :
    (s.takeEvent rest).readReg r = s.readReg r := by
  cases r <;> rfl

section
variable {s : State} {rest : List HostEvent}

theorem step_of_host {e : HostEvent} (h : s.host = e :: rest) : step s = perform e (s.takeEvent rest) := by
  rw [step, h]

theorem step_cmdWrite {w : Word} (h : s.host = .regWrite 0x00 w :: rest) : step s = issue w (s.takeEvent rest) :=
  step_of_host h

theorem step_regWrite {off : Nat} {v : Word} {r : Reg} (h : s.host = .regWrite off v :: rest) (hr : regAt off = some r)
    (hcmd : r ≠ .cmd) : step s = .next ((s.takeEvent rest).writeReg r v) := by
  rw [step_of_host h, perform, hostRegWrite, hr]
  cases r
  case cmd => exact absurd rfl hcmd
  all_goals rfl

theorem step_regWrite_of_none {off : Nat} {v : Word} (h : s.host = .regWrite off v :: rest) (hr : regAt off = none) :
    step s = .refused (.noSuchRegister off) := by
  rw [step_of_host h, perform, hostRegWrite, hr]

theorem step_regRead {off : Nat} {r : Reg} (h : s.host = .regRead off :: rest) (hr : regAt off = some r) :
    step s = .next ((s.takeEvent rest).setPort (.word (s.readReg r))) := by
  rw [← takeEvent_readReg s rest r, step_of_host h, perform, hostRegRead, hr]

theorem step_regRead_of_none {off : Nat} (h : s.host = .regRead off :: rest) (hr : regAt off = none) :
    step s = .refused (.noSuchRegister off) := by
  rw [step_of_host h, perform, hostRegRead, hr]

theorem step_memWrite {addr : Nat} {v : List Byte} (h : s.host = .memWrite addr v :: rest)
    (hin : addr + v.length ≤ s.memSize) : step s = .next ((s.takeEvent rest).setMem (s.mem.writeBytes addr v)) := by
  rw [step_of_host h]
  exact if_pos hin

theorem step_memWrite_of_outside {addr : Nat} {v : List Byte} (h : s.host = .memWrite addr v :: rest)
    (hout : s.memSize < addr + v.length) : step s = .refused (.hostRangeOutsideMem addr v.length) := by
  rw [step_of_host h]
  exact if_neg hout.not_ge

theorem step_memRead {addr n : Nat} (h : s.host = .memRead addr n :: rest) (hin : addr + n ≤ s.memSize) :
    step s = .next ((s.takeEvent rest).setPort (.bytes (s.mem.readBytes addr n))) := by
  rw [step_of_host h]
  exact if_pos hin

theorem step_memRead_of_outside {addr n : Nat} (h : s.host = .memRead addr n :: rest) (hout : s.memSize < addr + n) :
    step s = .refused (.hostRangeOutsideMem addr n) := by
  rw [step_of_host h]
  exact if_neg hout.not_ge

end

/-- Settles O8: the store is one `writeBytes`, whose two rules say what stands inside its range and outside it. -/
theorem hostMemoryAccess : Obligations.HostMemoryAccess := by
  intro s addr rest
  constructor
  · intro v h hin
    refine ⟨_, step_memWrite h hin, rfl, by simp [SameRegisters], rfl, rfl, rfl, ?_, ?_⟩
    · exact fun i hi => Memory.read_writeBytes_of_inside _ v hi
    · exact fun a ha => Memory.read_writeBytes_of_outside _ v ha
  · exact fun n h hin => step_memRead h hin

/-- What the word written to `CMD` leaves alone, whether it is a command (R22) or illegal (R85). -/
theorem issue_keeps {w : Word} {s t : State} (h : issue w s = .next t) : SameRegisters s t ∧ SameSurroundings s t := by
  cases hw : decode w with
  | ok i =>
    obtain ⟨u, hexec, hkept⟩ := commandsNeverWriteOperandRegisters i s
    rw [issue_of_ok hw, hexec] at h
    cases h
    exact hkept
  | error r =>
    rw [issue_of_error hw] at h
    cases h
    simp [SameRegisters, SameSurroundings]

/-- Settles O10, by what each event leaves alone; of the register writes only those that store (not at `CMD`, which issues, and
not at `STATUS`, which is ignored) change an operand register. -/
theorem eachStateChangesOnlyByItsOwnTransaction : Obligations.EachStateChangesOnlyByItsOwnTransaction := by
  intro s t ht
  cases hhost : s.host with
  | nil =>
    rw [step, hhost] at ht
    cases ht
    simp [SameRegisters]
  | cons e rest =>
    rw [step_of_host hhost] at ht
    cases e with
    | regWrite off v =>
      rcases hostRegWrite_next ht with ⟨hr, hissue⟩ | ⟨r, hr, hcmd, rfl⟩
      · obtain rfl := regAt_eq_cmd hr
        obtain ⟨hregs, hsize, -, -⟩ := issue_keeps hissue
        exact ⟨fun _ => .inl ⟨v, rest, rfl⟩, fun _ => .inl ⟨v, rest, rfl⟩, fun hne => absurd hregs hne, hsize⟩
      · refine ⟨by simp, by simp, fun hne => .inl ⟨off, v, rest, rfl, ?_, ?_⟩, by simp⟩
        · rintro rfl
          cases hr
          exact hcmd rfl
        · rintro rfl
          cases hr
          simp [SameRegisters] at hne
    | regRead off =>
      obtain ⟨r, -, rfl⟩ := hostRegRead_next ht
      simp [SameRegisters]
    | memWrite addr v =>
      obtain ⟨-, rfl⟩ := hostMemWrite_next ht
      simp [SameRegisters]
    | memRead addr n =>
      obtain ⟨-, rfl⟩ := hostMemRead_next ht
      simp [SameRegisters]
    | reset init =>
      cases ht
      exact ⟨fun _ => .inr ⟨init, rest, rfl⟩, fun _ => .inr (.inr ⟨init, rest, rfl⟩), fun _ => .inr ⟨init, rest, rfl⟩, rfl⟩

/-- Settles O5: offset 0 of the register map is `CMD`, whose write issues the word. -/
theorem stepIssuesTheDecodedCommand : Obligations.StepIssuesTheDecodedCommand := by
  intro s w rest i hhost hw
  rw [step_cmdWrite hhost, issue_of_ok hw]
  rfl

/-- Settles O6: the register map gives the register at each offset. -/
theorem hostRegisterWrites : Obligations.HostRegisterWrites := by
  intro s v rest
  exact ⟨fun h => step_regWrite (r := .status) h rfl (by decide), fun h => step_regWrite (r := .src) h rfl (by decide),
    fun h => step_regWrite (r := .dst) h rfl (by decide), fun h => step_regWrite (r := .len) h rfl (by decide),
    fun h => step_regWrite (r := .keyp) h rfl (by decide), fun h => step_regWrite (r := .keylen) h rfl (by decide),
    fun h => step_regWrite (r := .ivp) h rfl (by decide), fun h => step_regWrite (r := .ctrlo) h rfl (by decide),
    fun h => step_regWrite (r := .ctrhi) h rfl (by decide)⟩

/-- Settles O7: the register map gives the register at each offset, and a read changes only what was returned. -/
theorem hostRegisterReads : Obligations.HostRegisterReads := by
  intro s rest
  exact ⟨fun h => step_regRead (r := .cmd) h rfl, fun h => step_regRead (r := .status) h rfl,
    fun h => step_regRead (r := .src) h rfl, fun h => step_regRead (r := .dst) h rfl,
    fun h => step_regRead (r := .len) h rfl, fun h => step_regRead (r := .keyp) h rfl,
    fun h => step_regRead (r := .keylen) h rfl, fun h => step_regRead (r := .ivp) h rfl,
    fun h => step_regRead (r := .ctrlo) h rfl, fun h => step_regRead (r := .ctrhi) h rfl⟩

/-- Settles O9: off the map no register is found, and outside `MEM` the bound fails. -/
theorem transactionsOutsideTheInterfaceAreRefused : Obligations.TransactionsOutsideTheInterfaceAreRefused := by
  intro s rest
  refine ⟨?_, ?_, ?_, ?_⟩
  · exact fun off v h hoff => step_regWrite_of_none h (regAt_eq_none hoff)
  · exact fun off h hoff => step_regRead_of_none h (regAt_eq_none hoff)
  · exact fun addr v h hout => step_memWrite_of_outside h hout
  · exact fun addr n h hout => step_memRead_of_outside h hout

end Sys2Proof.Machine

namespace Sys2Proof

open Machine (assignedOps)

/-! ### Format C and the opcode map

A command word is its three fields side by side (R80), and the two readings of the opcode map, `opcodeMap` and `opcode`, agree
(R82). So `decode` and `encode` are inverse to each other, and the words that decode are those that R85 leaves. -/

theorem wordZero_append (z : BitVec 20) (p : Param) (o : BitVec 8) : wordZero (z ++ (p ++ o)) = z :=
  BitVec.extractLsb'_append_eq_left

theorem wordParam_append (z : BitVec 20) (p : Param) (o : BitVec 8) : wordParam (z ++ (p ++ o)) = p :=
  (BitVec.extractLsb'_append_eq_of_add_le (by decide)).trans BitVec.extractLsb'_append_eq_left

theorem wordOp_append (z : BitVec 20) (p : Param) (o : BitVec 8) : wordOp (z ++ (p ++ o)) = o :=
  (BitVec.extractLsb'_append_eq_of_add_le (by decide)).trans BitVec.extractLsb'_append_eq_right

theorem append_wordFields (w : Word) : wordZero w ++ (wordParam w ++ wordOp w) = w := by
  have hlow : wordParam w ++ wordOp w = w.extractLsb' 0 12 := BitVec.extractLsb'_append_extractLsb'_eq_extractLsb' rfl
  rw [hlow]
  exact BitVec.extractLsb'_append_extractLsb'

/-- The opcode map has a row for the operation code of every command, and the row makes that command. -/
theorem opcodeMap_lookup_opcode (i : Instr) : ∃ mk, opcodeMap.lookup (opcode i) = some mk ∧ mk i.param = i := by
  cases i <;> exact ⟨_, rfl, rfl⟩

/-- Every row of the opcode map makes a command that has the row's operation code and the `PARAM` it is given. -/
theorem opcodeMap_row : ∀ row ∈ opcodeMap, ∀ p, opcode (row.2 p) = row.1 ∧ (row.2 p).param = p := by
  simp [opcodeMap, opcode, Instr.param]

theorem opcodeMap_row_of_lookup {o : BitVec 8} {mk : Param → Instr} (h : opcodeMap.lookup o = some mk) (p : Param) :
    opcode (mk p) = o ∧ (mk p).param = p := by
  obtain ⟨before, after, hmap, -⟩ := List.lookup_eq_some_iff.1 h
  exact opcodeMap_row (o, mk) (by simp [hmap]) p

theorem assignedOps_eq_map : assignedOps = opcodeMap.map Prod.fst := rfl

theorem exists_opcodeMap_lookup_iff {o : BitVec 8} : (∃ mk, opcodeMap.lookup o = some mk) ↔ o ∈ assignedOps := by
  rw [← Option.isSome_iff_exists, List.lookup_isSome_iff, assignedOps_eq_map, List.mem_map]
  simp only [beq_iff_eq, eq_comm (a := o)]

/-- A word decodes by its three fields. -/
theorem decode_eq_ok_iff {w : Word} {i : Instr} :
    decode w = .ok i ↔ wordZero w = 0 ∧ ∃ mk, opcodeMap.lookup (wordOp w) = some mk ∧ mk (wordParam w) = i := by
  by_cases hzero : wordZero w = 0
  · rw [decode, if_neg (not_not_intro hzero)]
    cases opcodeMap.lookup (wordOp w) <;> simp [hzero]
  · rw [decode, if_pos hzero]
    exact iff_of_false (by simp) fun h => hzero h.1

/-- The words that decode: bits 31:12 are 0 and the operation code is assigned (R85). -/
theorem exists_decode_eq_ok_iff {w : Word} : (∃ i, decode w = .ok i) ↔ wordZero w = 0 ∧ wordOp w ∈ assignedOps := by
  simp [decode_eq_ok_iff, ← exists_opcodeMap_lookup_iff]

theorem decode_encode (i : Instr) : decode (encode i) = .ok i := by
  obtain ⟨mk, hlookup, hmk⟩ := opcodeMap_lookup_opcode i
  rw [decode_eq_ok_iff, encode, wordZero_append, wordParam_append, wordOp_append]
  exact ⟨rfl, mk, hlookup, hmk⟩

theorem encode_of_decode {w : Word} {i : Instr} (h : decode w = .ok i) : encode i = w := by
  obtain ⟨hzero, mk, hlookup, rfl⟩ := decode_eq_ok_iff.1 h
  obtain ⟨hop, hparam⟩ := opcodeMap_row_of_lookup hlookup (wordParam w)
  simpa only [encode, hop, hparam, hzero, BitVec.ofNat_eq_ofNat] using append_wordFields w

/-- Settles O2: the fields of the encoded word are `opcode` and `PARAM`, whose row of the opcode map makes the command. -/
theorem decodeOfEncode : Obligations.DecodeOfEncode := decode_encode

/-- Settles O3: a row of the opcode map gives its command the row's operation code, so the three fields are those of the word. -/
theorem encodeOfDecode : Obligations.EncodeOfDecode := fun _ _ => encode_of_decode

/-- Settles O1. -/
theorem decodesSampleWords : Obligations.DecodesSampleWords := by
  unfold Obligations.DecodesSampleWords
  decide

end Sys2Proof

namespace Sys2Proof.Machine

/-! ### The effect of every command word -/

theorem paramOnly_eq_contains (p : Param) : paramOnly p = [0].contains p := by
  simp [paramOnly, Bool.beq_eq_decide_eq]

theorem paramPresent_eq_contains (p : Param) : paramPresent p = [0, 1].contains p := by
  simp [paramPresent, Bool.beq_eq_decide_eq]

theorem paramRounds_eq_contains (p : Param) : paramRounds p = [0, 1, 2].contains p := by
  simp [paramRounds, Bool.beq_eq_decide_eq, Bool.or_assoc]

/-- The first check of a command is the one of well-formedness (R83, R84). -/
theorem operandsOf_legalParam (i : Instr) (s : State) : (operandsOf s i).legalParam = i.wellFormed := by
  cases i
  case presentKeysched p | presentEnc p | presentDec p => exact paramPresent_eq_contains p
  case chachaCore p | chacha20Block p | chacha20Xor p | salsaCore p | salsa20Block p | salsa20Xor p =>
    exact paramRounds_eq_contains p
  all_goals exact paramOnly_eq_contains _

theorem exec_of_not_wellFormed {i : Instr} (s : State) (h : i.wellFormed = false) :
    exec i s = .next (s.raise .unsupportedParameter) := by
  rw [exec_eq_checked]
  refine checked_of_error ?_
  simp [Operands.firstError, operandsOf_legalParam, h]

theorem exists_exec_eq_next (i : Instr) (s : State) : ∃ t, exec i s = .next t := by
  rcases exec_cases i s with ⟨e, -, hexec⟩ | ⟨-, hexec⟩ <;> exact ⟨_, hexec⟩

theorem exists_issue_eq_next (w : Word) (s : State) : ∃ t, issue w s = .next t := by
  cases hw : decode w with
  | ok i =>
    rw [issue_of_ok hw]
    exact exists_exec_eq_next i s
  | error r => exact ⟨_, issue_of_error hw⟩

theorem issue_of_illegal {w : Word} (s : State) (h : wordZero w ≠ 0 ∨ wordOp w ∉ assignedOps) :
    issue w s = .next (s.raise .illegalCommand) := by
  cases hw : decode w with
  | ok i =>
    obtain ⟨hzero, hop⟩ := exists_decode_eq_ok_iff.1 ⟨i, hw⟩
    exact absurd h (by simp [hzero, hop])
  | error r => exact issue_of_error hw

/-- Settles O4: the step issues the word; an illegal word and a `PARAM` that is not legal each raise one error, and no command
stops. -/
theorem everyWordHasADefinedEffect : Obligations.EveryWordHasADefinedEffect := by
  intro s w rest hhost
  rw [step_cmdWrite hhost]
  refine ⟨issue_of_illegal _, ?_, fun hzero hop => exists_decode_eq_ok_iff.2 ⟨hzero, hop⟩, exists_issue_eq_next w _⟩
  intro i hw hill
  rw [issue_of_ok hw]
  exact exec_of_not_wellFormed _ hill

/-! ### The memory a command leaves alone -/

/-- The range that an entry of a row of R88 stands for: so many bytes at the address the register holds. -/
def State.entryRange (s : State) (pn : Reg × Nat) : Range := { base := (s.readReg pn.1).toNat, len := pn.2 }

/-- The `writes` column of R88 is the output range that the command is checked against. -/
theorem row_writes_eq_dst (i : Instr) (s : State) :
    (s.row i).writes.map s.entryRange = (operandsOf s i).dst.toList := by
  cases i <;> rfl

theorem Memory.read_writeRange_of_outside (m : Memory) {o : Option Range} {v : List Byte} {a : Nat}
    (h : ∀ r, o = some r → a < r.base ∨ r.base + v.length ≤ a) : (m.writeRange o v).read a = m.read a := by
  cases o with
  | none => rfl
  | some r => exact Memory.read_writeBytes_of_outside m v (h r rfl)

/-- A command that passes its checks changes no byte outside its output range. -/
theorem stateAfter_read_of_outside {i : Instr} {s : State} {a : Nat}
    (h : ∀ pn ∈ (s.row i).writes, a < (s.readReg pn.1).toNat ∨ (s.readReg pn.1).toNat + pn.2 ≤ a) :
    (stateAfter i s).mem.read a = s.mem.read a := by
  refine Memory.read_writeRange_of_outside _ fun r hr => ?_
  have hrow : r ∈ (s.row i).writes.map s.entryRange := by simp [row_writes_eq_dst, hr]
  obtain ⟨pn, hpn, rfl⟩ := List.mem_map.1 hrow
  rw [outputIn_length hr]
  exact h pn hpn

/-- Settles O18: an error leaves `MEM` alone, and a command that passes its checks stores in its output range and reports no error. -/
theorem commandsStoreOnlyInTheirOutputRange : Obligations.CommandsStoreOnlyInTheirOutputRange := by
  intro i s
  rcases exec_cases i s with ⟨e, -, hexec⟩ | ⟨-, hexec⟩ <;> refine ⟨_, hexec, ?_, ?_⟩
  · exact fun _ _ => rfl
  · exact fun _ => rfl
  · exact fun a ha => stateAfter_read_of_outside ha
  · exact fun herr => absurd (statusAfter_err s.status i) herr

end Sys2Proof.Machine

namespace Sys2Proof.Machine

/-! ### What a successful command leaves -/

/-- A command other than `CLRSTAT` that passes its checks completes: it writes its output to its output range (R60, R84). -/
theorem exec_completed {i : Instr} {s : State} {p : Word} {n : Nat} (hi : ∀ q, i ≠ .clrstat q)
    (hlegal : (operandsOf s i).firstError s.memSize = none) (hdst : (operandsOf s i).dst = rangeAt p n) :
    ∃ t, exec i s = .next t ∧ Completed s t p n (outputIn s i) := by
  have hlen : (outputIn s i).length = n := outputIn_length hdst
  have hmem : (stateAfter i s).mem = s.mem.writeBytes p.toNat (outputIn s i) := by
    rw [stateAfter_mem, hdst]
    rfl
  refine ⟨stateAfter i s, by rw [exec_eq_checked, checked_of_legal hlegal], ?_⟩
  exact {
    status := statusAfter_of_ne_clrstat _ hi
    registers := by simp [SameRegisters, stateAfter]
    surroundings := by simp [SameSurroundings, stateAfter]
    size := hlen
    written := fun k hk => by
      rw [hmem]
      exact Memory.read_writeBytes_of_inside _ _ (hlen.symm ▸ hk)
    frame := fun a ha => by
      rw [hmem]
      exact Memory.read_writeBytes_of_outside _ _ (hlen.symm ▸ ha) }

/-- Settles O22: no check fails, and the two bytes read are those at `SRC`. -/
theorem gfMulCompletes : Obligations.GfMulCompletes := by
  intro s hlen hsrc hdst
  have hlegal : (operandsOf s (.gfMul 0)).firstError s.memSize = none := by
    rw [Operands.firstError_eq_none_iff]
    refine ⟨rfl, rfl, by simp [operandsOf, operandsGfMul, hlen], ?_⟩
    intro r hr
    have hranges : (operandsOf s (.gfMul 0)).ranges = [⟨s.src.toNat, 2⟩, ⟨s.dst.toNat, 1⟩] := rfl
    rw [hranges, List.mem_pair] at hr
    rw [Range.inside_iff]
    rcases hr with rfl | rfl
    · exact hsrc
    · exact hdst
  have hout : outputIn s (.gfMul 0) = [gfMul (s.mem.read s.src.toNat) (s.mem.read (s.src.toNat + 1))] := rfl
  rw [← hout]
  exact exec_completed (by simp) hlegal rfl

/-! ### Bits by position -/

theorem getLsbD_ofBits (n : Nat) (f : Nat → Bool) {i : Nat} (h : i < n) : (ofBits n f).getLsbD i = f i := by
  induction n with
  | zero => omega
  | succ n ih =>
    rw [ofBits, BitVec.getLsbD_cons]
    split
    · next heq => rw [heq]
    · exact ih (by omega)

/-- Settles O40: position `i` from the top is bit `to_width - i`, and the entry of the table for it is the `i`-th. -/
theorem permuteAddressesBitsFromTheTop : Obligations.PermuteAddressesBitsFromTheTop := by
  intro fw tw block table _ _ i hlow hhigh
  have hentry : tw - 1 - (tw - i) = i - 1 := by omega
  rw [permute, getLsbD_ofBits _ _ (by omega), hentry]

/-- One more bit kept is one more power of two added. -/
theorem setWidth_succ_eq_xor {w : Nat} (a : BitVec w) (n : Nat) :
    (a.setWidth (n + 1)).setWidth w =
      (a.setWidth n).setWidth w ^^^ (if a.getLsbD n then BitVec.twoPow w n else 0#w) := by
  ext i hi
  have hpos := Nat.lt_trichotomy i n
  split <;> grind

/-- A property that XOR keeps, and that 0 and the vectors with one bit set have, holds of every bit vector. -/
theorem bitVec_xor_induction {w : Nat} {P : BitVec w → Prop} (zero : P 0#w)
    (bit : ∀ k, k < w → P (BitVec.twoPow w k)) (xor : ∀ a b, P a → P b → P (a ^^^ b)) (a : BitVec w) : P a := by
  have low (n : Nat) (hn : n ≤ w) : P ((a.setWidth n).setWidth w) := by
    induction n with
    | zero =>
      have hzero : (a.setWidth 0).setWidth w = 0#w := by ext i hi; simp
      exact hzero ▸ zero
    | succ n ih =>
      rw [setWidth_succ_eq_xor]
      refine xor _ _ (ih (by omega)) ?_
      split
      · exact bit n (by omega)
      · exact zero
  simpa using low w le_rfl

/-! ### The field product

The loop of R111 is XOR-linear in each operand, so a law about all bytes follows from the bytes with one bit set, or from 1
and doubling. -/

/-- Adding `a` under two conditions, in `p` and in `q`, adds it to their XOR under exactly one. -/
theorem ite_xor_eq {w : Nat} (x y : Bool) (a p q : BitVec w) :
    (if x ^^ y then p ^^^ q ^^^ a else p ^^^ q) = (if x then p ^^^ a else p) ^^^ (if y then q ^^^ a else q) := by
  have hcancel : p ^^^ a ^^^ (q ^^^ a) = p ^^^ q := by
    rw [BitVec.xor_comm q a, BitVec.xor_assoc, ← BitVec.xor_assoc a a q, BitVec.xor_self, BitVec.zero_xor]
  cases x <;> cases y
  · rfl
  · exact BitVec.xor_assoc p q a
  · change p ^^^ q ^^^ a = p ^^^ a ^^^ q
    ac_rfl
  · exact hcancel.symm

theorem gfDouble_eq (a : Byte) : gfDouble a = a <<< 1 ^^^ (if a.getLsbD 7 then 0x1B else 0) := by
  rw [gfDouble]
  split
  · rfl
  · exact (BitVec.xor_zero).symm

theorem gfDouble_xor (a b : Byte) : gfDouble (a ^^^ b) = gfDouble a ^^^ gfDouble b := by
  rw [gfDouble, BitVec.getLsbD_xor, BitVec.shiftLeft_xor_distrib]
  exact ite_xor_eq _ _ _ _ _

theorem gfMulLoop_xor_right (n : Nat) (a b c p q : Byte) :
    gfMulLoop n a (b ^^^ c) (p ^^^ q) = gfMulLoop n a b p ^^^ gfMulLoop n a c q := by
  induction n generalizing a b c p q with
  | zero => rfl
  | succ n ih =>
    rw [gfMulLoop, gfMulLoop, gfMulLoop, ← ih, BitVec.ushiftRight_xor_distrib, BitVec.getLsbD_xor, ite_xor_eq]

theorem gfMulLoop_xor_left (n : Nat) (a b c p q : Byte) :
    gfMulLoop n (a ^^^ b) c (p ^^^ q) = gfMulLoop n a c p ^^^ gfMulLoop n b c q := by
  induction n generalizing a b c p q with
  | zero => rfl
  | succ n ih =>
    rw [gfMulLoop, gfMulLoop, gfMulLoop, ← ih, gfDouble_xor]
    congr 1
    cases c.getLsbD 0
    · rfl
    · change p ^^^ q ^^^ (a ^^^ b) = p ^^^ a ^^^ (q ^^^ b)
      ac_rfl

theorem gfMulLoop_gfDouble (n : Nat) (a b p : Byte) :
    gfMulLoop n (gfDouble a) b (gfDouble p) = gfDouble (gfMulLoop n a b p) := by
  induction n generalizing a b p with
  | zero => rfl
  | succ n ih =>
    rw [gfMulLoop, gfMulLoop, ← ih, ← gfDouble_xor]
    cases b.getLsbD 0 <;> rfl

theorem gfMul_xor_right (a b c : Byte) : gfMul a (b ^^^ c) = gfMul a b ^^^ gfMul a c :=
  gfMulLoop_xor_right 8 a b c 0 0

theorem gfMul_xor_left (a b c : Byte) : gfMul (a ^^^ b) c = gfMul a c ^^^ gfMul b c :=
  gfMulLoop_xor_left 8 a b c 0 0

theorem gfMul_gfDouble_left (a b : Byte) : gfMul (gfDouble a) b = gfDouble (gfMul a b) :=
  gfMulLoop_gfDouble 8 a b 0

@[simp] theorem gfMul_zero_right (a : Byte) : gfMul a 0#8 = 0#8 := by
  simpa using gfMul_xor_right a 0 0

@[simp] theorem gfMul_zero_left (a : Byte) : gfMul 0#8 a = 0#8 := by
  simpa using gfMul_xor_left 0 0 a

/-- What commutativity comes down to: 64 products of bytes with one bit set. -/
theorem gfMul_twoPow_comm : ∀ j < 8, ∀ k < 8,
    gfMul (BitVec.twoPow 8 j) (BitVec.twoPow 8 k) = gfMul (BitVec.twoPow 8 k) (BitVec.twoPow 8 j) := by decide

theorem gfMul_comm (a b : Byte) : gfMul a b = gfMul b a := by
  induction a using bitVec_xor_induction with
  | zero => exact (gfMul_zero_left b).trans (gfMul_zero_right b).symm
  | xor a a' ih ih' => rw [gfMul_xor_left, gfMul_xor_right, ih, ih']
  | bit j hj =>
    induction b using bitVec_xor_induction with
    | zero => exact (gfMul_zero_right _).trans (gfMul_zero_left _).symm
    | xor b b' ih ih' => rw [gfMul_xor_left, gfMul_xor_right, ih, ih']
    | bit k hk => exact gfMul_twoPow_comm j hj k hk

theorem gfMul_gfDouble_right (a b : Byte) : gfMul a (gfDouble b) = gfDouble (gfMul a b) := by
  rw [gfMul_comm, gfMul_gfDouble_left, gfMul_comm]

@[simp] theorem gfMul_one_right (a : Byte) : gfMul a 1#8 = a := by
  simp [gfMul, gfMulLoop]

@[simp] theorem gfMul_one_left (a : Byte) : gfMul 1#8 a = a := by
  rw [gfMul_comm, gfMul_one_right]

theorem gfMul_two_right (a : Byte) : gfMul a 2 = gfDouble a :=
  (gfMul_gfDouble_right a 1).trans (congrArg gfDouble (gfMul_one_right a))

theorem twoPow_eq_iterate_gfDouble : ∀ k < 8, BitVec.twoPow 8 k = gfDouble^[k] 1 := by decide

/-- Every byte is reached from 0 and 1 by XOR and doubling. -/
theorem gf_induction {P : Byte → Prop} (zero : P 0) (one : P 1) (double : ∀ a, P a → P (gfDouble a))
    (xor : ∀ a b, P a → P b → P (a ^^^ b)) (a : Byte) : P a := by
  refine bitVec_xor_induction zero (fun k hk => ?_) xor a
  rw [twoPow_eq_iterate_gfDouble k hk]
  exact Function.Iterate.rec P one double k

theorem gfMul_assoc (a b c : Byte) : gfMul (gfMul a b) c = gfMul a (gfMul b c) := by
  induction c using gf_induction with
  | zero => simp
  | one => simp
  | double c ih => simp only [gfMul_gfDouble_right, ih]
  | xor c c' ih ih' => simp only [gfMul_xor_right, ih, ih']

/-! ### The powers of 0x03 (R112)

Exponents add, and 0x03 has the order 255; so its powers are all bytes but 0, and each of them has an inverse. -/

theorem gfAlog_add (i j : Nat) : gfAlog (i + j) = gfMul (gfAlog i) (gfAlog j) := by
  induction j with
  | zero => exact (gfMul_one_right _).symm
  | succ j ih => rw [← Nat.add_assoc, gfAlog, gfAlog, ih, gfMul_assoc]

theorem foldl_gfMul_three (n : Nat) :
    (List.range n).foldl (fun t _ => gfMul (t.headD 0) 0x03 :: t) [1] = ((List.range (n + 1)).map gfAlog).reverse := by
  induction n with
  | zero => rfl
  | succ n ih =>
    rw [List.range_succ, List.foldl_append, ih]
    simp [List.range_succ, gfAlog]

theorem gfAlogTable_eq_map : gfAlogTable = (List.range 255).map gfAlog := by
  rw [gfAlogTable, foldl_gfMul_three, List.reverse_reverse]

@[simp] theorem gfAlogTable_length : gfAlogTable.length = 255 := by simp [gfAlogTable_eq_map]

theorem gfAlogTable_getD {i : Nat} (h : i < 255) : gfAlogTable.getD i 0 = gfAlog i := by
  simp [gfAlogTable_eq_map, List.getD_eq_getElem?_getD, h]

/-- No power of 0x03 between the 0th and the 255th is 1. -/
theorem one_notMem_gfAlogTable_tail : 1#8 ∉ gfAlogTable.tail := by decide

theorem gfAlog_255 : gfAlog 255 = 1 := by decide +kernel

theorem gfAlog_periodic : Function.Periodic gfAlog 255 := by
  intro i
  rw [gfAlog_add, gfAlog_255]
  exact gfMul_one_right _

theorem gfAlog_eq_one {n : Nat} (hn : n < 255) (h : gfAlog n = 1) : n = 0 := by
  cases n with
  | zero => rfl
  | succ k =>
    have hmem : gfAlog (k + 1) ∈ gfAlogTable.tail := by
      rw [gfAlogTable_eq_map, List.range_succ_eq_map]
      simp only [List.map_cons, List.tail_cons, List.map_map, List.mem_map, List.mem_range]
      exact ⟨k, by omega, rfl⟩
    exact absurd (by rwa [h] at hmem) one_notMem_gfAlogTable_tail

/-- A power of 0x03 has the power that completes its exponent to 255 as its inverse. -/
theorem gfMul_gfAlog_inverse {i : Nat} (h : i ≤ 255) : gfMul (gfAlog i) (gfAlog (255 - i)) = 1 := by
  rw [← gfAlog_add, Nat.add_sub_cancel' h, gfAlog_255]

theorem gfAlog_ne_zero {i : Nat} (h : i ≤ 255) : gfAlog i ≠ 0 := by
  intro hzero
  have hone := gfMul_gfAlog_inverse h
  rw [hzero] at hone
  exact absurd ((gfMul_zero_left _).symm.trans hone) (by decide)

theorem eq_of_gfAlog_eq_of_le {i j : Nat} (hij : i ≤ j) (hj : j < 255) (h : gfAlog i = gfAlog j) : i = j := by
  have hone : gfAlog (j - i) = 1 := by
    calc gfAlog (j - i) = gfAlog (j - i + 255) := (gfAlog_periodic _).symm
      _ = gfAlog (j + (255 - i)) := by congr 1; omega
      _ = 1 := by rw [gfAlog_add, ← h, gfMul_gfAlog_inverse (by omega)]
  have := gfAlog_eq_one (by omega) hone
  omega

theorem gfAlog_injOn : Set.InjOn gfAlog (Finset.range 255) := by
  intro i hi j hj h
  rw [Finset.mem_coe, Finset.mem_range] at hi hj
  rcases le_total i j with hij | hij
  · exact eq_of_gfAlog_eq_of_le hij hj h
  · exact (eq_of_gfAlog_eq_of_le hij hi h.symm).symm

/-- The 255 powers are the 255 bytes other than 0: they are distinct, and there are no more. -/
theorem exists_gfAlog_eq {a : Byte} (ha : a ≠ 0) : ∃ i < 255, gfAlog i = a := by
  have hmaps : Set.MapsTo gfAlog (Finset.range 255) (Finset.univ.erase (0 : Byte)) := by
    intro i hi
    have hlt : i < 255 := by simpa using hi
    simpa using gfAlog_ne_zero hlt.le
  have hcard : (Finset.univ.erase (0 : Byte)).card ≤ (Finset.range 255).card := by
    rw [Finset.card_erase_of_mem (Finset.mem_univ _), Finset.card_univ, ← FinEnum.card_eq_fintypeCard, FinEnum.card_bitVec,
      Finset.card_range]
    decide
  obtain ⟨i, hi, rfl⟩ := Finset.surjOn_of_injOn_of_card_le gfAlog hmaps gfAlog_injOn hcard (by simpa using ha)
  exact ⟨i, by simpa using hi, rfl⟩

theorem gfMul_inverse_unique {a b b' : Byte} (hb : gfMul a b = 1) (hb' : gfMul a b' = 1) : b' = b := by
  calc b' = gfMul (gfMul a b) b' := by rw [hb]; exact (gfMul_one_left b').symm
    _ = gfMul b (gfMul a b') := by rw [gfMul_comm a b, gfMul_assoc]
    _ = b := by rw [hb']; exact gfMul_one_right b

theorem exists_gfMul_eq_one {a : Byte} (ha : a ≠ 0) : ∃ b, gfMul a b = 1 := by
  obtain ⟨i, hi, rfl⟩ := exists_gfAlog_eq ha
  exact ⟨_, gfMul_gfAlog_inverse hi.le⟩

/-- Settles O38: linearity in each operand gives the laws of the product, and an inverse is a power of 0x03. -/
theorem gfMulFieldLaws : Obligations.GfMulFieldLaws := by
  refine ⟨⟨fun a => ⟨gfMul_zero_right a, gfMul_zero_left a, gfMul_one_right a⟩, gfMul_comm, gfMul_xor_right, by decide,
    fun a ha => ?_⟩, fun a b => ⟨(gfMul_two_right a).trans (gfDouble_eq a), (gfMul_assoc a b 2).symm⟩⟩
  obtain ⟨b, hb⟩ := exists_gfMul_eq_one ha
  exact ⟨b, hb, fun _ hb' => gfMul_inverse_unique hb hb'⟩

/-- `LOG` is the inverse of `ALOG`. -/
theorem gfAlog_gfLog {a : Byte} (ha : a ≠ 0) : gfAlog (gfLog a) = a := by
  obtain ⟨i, hi, hia⟩ := exists_gfAlog_eq ha
  have hmem : a ∈ gfAlogTable := by
    rw [gfAlogTable_eq_map]
    exact List.mem_map.2 ⟨i, List.mem_range.2 hi, hia⟩
  have hlt : gfLog a < gfAlogTable.length := List.idxOf_lt_length_of_mem hmem
  rw [← gfAlogTable_getD (gfAlogTable_length ▸ hlt), List.getD_eq_getElem _ _ hlt]
  exact List.getElem_idxOf hlt

theorem gfMulTable_eq_gfMul (a b : Byte) : gfMulTable a b = gfMul a b := by
  unfold gfMulTable
  split
  · next h =>
    rcases h with rfl | rfl
    · exact (gfMul_zero_left b).symm
    · exact (gfMul_zero_right a).symm
  · next h =>
    obtain ⟨ha, hb⟩ := not_or.1 h
    rw [gfAlogTable_getD (Nat.mod_lt _ (by decide)), gfAlog_periodic.map_mod_nat, gfAlog_add, gfAlog_gfLog ha, gfAlog_gfLog hb]

/-- Settles O39: logarithms are exponents of 0x03, which add modulo its order. -/
theorem gfTableVariantAgrees : Obligations.GfTableVariantAgrees :=
  ⟨gfMulTable_eq_gfMul, gfAlogTable_length, fun _ => gfAlogTable_getD⟩

end Sys2Proof.Machine

namespace Sys2Proof.Machine

/-! ### Entries and pieces of a byte sequence -/

/-- Sequences of one length are equal when their entries are. -/
theorem eq_of_getD_eq {a b : List Byte} {n : Nat} (ha : a.length = n) (hb : b.length = n)
    (h : ∀ i < n, a.getD i 0 = b.getD i 0) : a = b := by
  refine List.ext_getElem (ha.trans hb.symm) fun i hi hi' => ?_
  simpa [hi, hi'] using h i (ha ▸ hi)

theorem slice_length {b : List Byte} {i n : Nat} (h : i + n ≤ b.length) : (slice b i n).length = n := by
  simp only [slice, List.length_take, List.length_drop]
  omega

theorem slice_getD (b : List Byte) (i : Nat) {n k : Nat} (h : k < n) : (slice b i n).getD k 0 = b.getD (i + k) 0 := by
  simp [slice, List.getD_eq_getElem?_getD, h]

theorem slice_slice (b : List Byte) (i : Nat) {j m n : Nat} (h : j + m ≤ n) :
    slice (slice b i n) j m = slice b (i + j) m := by
  simp [slice, List.drop_take, List.take_take, Nat.le_sub_of_add_le' h]

/-- In a concatenation of pieces of one length, piece `i` stands at `i` times that length. -/
theorem slice_flatten {k : Nat} {l : List (List Byte)} (hk : ∀ a ∈ l, a.length = k) {i : Nat} (hi : i < l.length) :
    slice l.flatten (k * i) k = l.getD i [] := by
  induction l generalizing i with
  | nil => simp at hi
  | cons a l ih =>
    obtain ⟨rfl, hl⟩ := List.forall_mem_cons.1 hk
    cases i with
    | zero => simp [slice]
    | succ i =>
      calc slice (a :: l).flatten (a.length * (i + 1)) a.length
          = slice l.flatten (a.length * i) a.length := by
            rw [Nat.mul_succ, Nat.add_comm, List.flatten_cons, slice, List.drop_length_add_append, slice]
        _ = l.getD i [] := ih hl (Nat.lt_of_succ_lt_succ hi)

theorem xorBytes_getD (a b : List Byte) {i : Nat} (ha : i < a.length) (hb : i < b.length) :
    (xorBytes a b).getD i 0 = a.getD i 0 ^^^ b.getD i 0 := by
  simp [xorBytes, List.getD_eq_getElem?_getD, ha, hb]

/-! ### AES: the layers by position (R120 to R126) -/

theorem aesState_getD (f : Nat → Byte) {i : Nat} (h : i < 16) : (aesState f).getD i 0 = f i := by
  simp [aesState, List.getD_eq_getElem?_getD, h]

section
variable (s k : List Byte) {r c : Nat}

theorem subBytes_getD {i : Nat} (h : i < 16) : (subBytes s).getD i 0 = sbox (s.getD i 0) := aesState_getD _ h

theorem addRoundKey_getD {i : Nat} (h : i < 16) : (addRoundKey s k).getD i 0 = s.getD i 0 ^^^ k.getD i 0 :=
  aesState_getD _ h

theorem shiftRows_getD (hr : r < 4) (hc : c < 4) :
    (shiftRows s).getD (r + 4 * c) 0 = s.getD (r + 4 * ((c + r) % 4)) 0 := by
  have hrow : (r + 4 * c) % 4 = r := by omega
  have hcol : (r + 4 * c) / 4 = c := by omega
  rw [shiftRows, aesState_getD _ (by omega), hrow, hcol]

/-- Row `r` of column `c` after `MixColumns`: row `r` of the matrix times column `c`. -/
theorem mixColumns_getD (hr : r < 4) (hc : c < 4) :
    (mixColumns s).getD (r + 4 * c) 0 =
      gfMul ((mixMatrix.getD r []).getD 0 0) (s.getD (0 + 4 * c) 0) ^^^
        gfMul ((mixMatrix.getD r []).getD 1 0) (s.getD (1 + 4 * c) 0) ^^^
        gfMul ((mixMatrix.getD r []).getD 2 0) (s.getD (2 + 4 * c) 0) ^^^
        gfMul ((mixMatrix.getD r []).getD 3 0) (s.getD (3 + 4 * c) 0) := by
  have hrow : (r + 4 * c) % 4 = r := by omega
  have hcol : (r + 4 * c) / 4 = c := by omega
  rw [mixColumns, aesState_getD _ (by omega), hrow, hcol]
end

/-- Settles O42: each layer by its entries; the four rows of the matrix are those of `mixMatrix`. -/
theorem aesLayersByRowAndColumn : Obligations.AesLayersByRowAndColumn := by
  refine ⟨fun s k r c hr hc => ?_, fun s k => ?_⟩
  · have hi : r + 4 * c < 16 := by omega
    have hmix {r} (hr : r < 4) := mixColumns_getD s hr hc
    exact ⟨subBytes_getD s hi, shiftRows_getD s hr hc, addRoundKey_getD s k hi, hmix (by decide), hmix (by decide),
      hmix (by decide), hmix (by decide)⟩
  · exact ⟨subBytes_length s, shiftRows_length s, mixColumns_length s, addRoundKey_length s k, rfl, rfl⟩

/-! ### AES: the four commands -/

/-- No check of `AES128.KEYEXP` fails. -/
theorem operandsAes128Keyexp_legal {s : State} (hkeylen : s.keylen = 16) (hkey : s.inMem s.keyp 16)
    (hdst : s.inMem s.dst 176) : (operandsAes128Keyexp 0 s).firstError s.memSize = none := by
  have hranges : (operandsAes128Keyexp 0 s).ranges = [⟨s.keyp.toNat, 16⟩, ⟨s.dst.toNat, 176⟩] := rfl
  rw [Operands.firstError_eq_none_iff, hranges]
  refine ⟨rfl, by simp [operandsAes128Keyexp, hkeylen], rfl, ?_⟩
  simp only [List.forall_mem_cons, Range.inside_iff]
  exact ⟨hkey, hdst, by simp⟩

/-- No check of the row shared by the three block commands fails. -/
theorem operandsAesBlock_legal {s : State} (hkeylen : s.keylen = 16) (hlen : s.len = 16) (hkey : s.inMem s.keyp 16)
    (hsrc : s.inMem s.src 16) (hdst : s.inMem s.dst 16) : (operandsAesBlock 0 s).firstError s.memSize = none := by
  have hranges : (operandsAesBlock 0 s).ranges = [⟨s.keyp.toNat, 16⟩, ⟨s.src.toNat, 16⟩, ⟨s.dst.toNat, 16⟩] := rfl
  rw [Operands.firstError_eq_none_iff, hranges]
  refine ⟨rfl, by simp [operandsAesBlock, hkeylen], by simp [operandsAesBlock, hlen], ?_⟩
  simp only [List.forall_mem_cons, Range.inside_iff]
  exact ⟨hkey, hsrc, hdst, by simp⟩

/-- Settles O23: no check fails, and the key bytes read are those at `KEYP`. -/
theorem aes128KeyexpCompletes : Obligations.Aes128KeyexpCompletes := by
  intro s hkeylen hkey hdst
  exact exec_completed (i := .aes128Keyexp 0) (by simp) (operandsAes128Keyexp_legal hkeylen hkey hdst) rfl

/-- Settles O24: the three commands share a row of R88, whose checks pass. -/
theorem aesRoundCommandsComplete : Obligations.AesRoundCommandsComplete := by
  intro s hkeylen hlen hkey hsrc hdst
  have hlegal := operandsAesBlock_legal hkeylen hlen hkey hsrc hdst
  exact ⟨exec_completed (i := .aesRnd 0) (by simp) hlegal rfl,
    exec_completed (i := .aesRndlast 0) (by simp) hlegal rfl,
    exec_completed (i := .aes128Enc 0) (by simp) hlegal rfl⟩

/-! ### AES: the S-box and the field (R121, R122)

Going back from an entry of the table through the affine map gives the field inverse, of which there is one. -/

/-- The affine map of R121. -/
def sboxAffine (b : Byte) : Byte :=
  b ^^^ b.rotateLeft 1 ^^^ b.rotateLeft 2 ^^^ b.rotateLeft 3 ^^^ b.rotateLeft 4 ^^^ 0x63

/-- The inverse of the affine map of R121. -/
def sboxAffineInv (b : Byte) : Byte := b.rotateLeft 1 ^^^ b.rotateLeft 3 ^^^ b.rotateLeft 6 ^^^ 0x05

theorem sboxAffine_sboxAffineInv : ∀ b : Byte, sboxAffine (sboxAffineInv b) = b := by decide +kernel

theorem gfMul_sboxAffineInv_sbox : ∀ a : Byte, a ≠ 0 → gfMul a (sboxAffineInv (sbox a)) = 1 := by decide +kernel

theorem invSbox_sbox : ∀ a : Byte, invSbox (sbox a) = a := by decide +kernel

theorem sbox_invSbox : ∀ a : Byte, sbox (invSbox a) = a := by decide +kernel

/-- Settles O41: an entry taken back through the affine map is the one inverse `b` of `a`; the tables undo each other entry by
entry. -/
theorem sboxIsFieldInverseThenAffine : Obligations.SboxIsFieldInverseThenAffine := by
  refine ⟨fun a b hab => ?_, rfl, fun a => ⟨invSbox_sbox a, sbox_invSbox a⟩⟩
  have ha : a ≠ 0 := by
    rintro rfl
    exact absurd ((gfMul_zero_left b).symm.trans hab) (by decide)
  have hb : sboxAffineInv (sbox a) = b := gfMul_inverse_unique hab (gfMul_sboxAffineInv_sbox a ha)
  rw [← sboxAffine_sboxAffineInv (sbox a), hb, sboxAffine]

/-! ### AES: the key schedule (R127 to R130) -/

/-- Word `i` of the key schedule by the recurrence of R130. -/
def scheduleWord (key : List Byte) : Nat → AesWord
  | 0 => keyWord key 0
  | 1 => keyWord key 1
  | 2 => keyWord key 2
  | 3 => keyWord key 3
  | i + 4 =>
    aesWordXor (scheduleWord key i)
      (if (i + 4) % 4 = 0 then keyG (scheduleWord key (i + 3)) ((i + 4) / 4) else scheduleWord key (i + 3))

theorem scheduleWord_of_lt (key : List Byte) {i : Nat} (h : i < 4) : scheduleWord key i = keyWord key i := by
  interval_cases i <;> rfl

/-- The loop of R130 adds the words of the recurrence one by one. -/
theorem foldl_keyStep (key : List Byte) (n : Nat) :
    (List.range' 4 n).foldl keyStep [keyWord key 3, keyWord key 2, keyWord key 1, keyWord key 0] =
      ((List.range (n + 4)).map (scheduleWord key)).reverse := by
  induction n with
  | zero => rfl
  | succ n ih =>
    rw [List.range'_concat, List.foldl_append, ih]
    simp [List.range_succ, keyStep, scheduleWord, Nat.add_comm]

theorem keyWords_eq_map (key : List Byte) : keyWords key = (List.range 44).map (scheduleWord key) := by
  rw [keyWords, foldl_keyStep, List.reverse_reverse]

theorem keyWords_getD (key : List Byte) {i : Nat} (h : i < 44) (d : AesWord) :
    (keyWords key).getD i d = scheduleWord key i := by
  simp [keyWords_eq_map, List.getD_eq_getElem?_getD, h]

@[simp] theorem keyExpansion_length (key : List Byte) : (keyExpansion key).length = 11 := rfl

theorem keyExpansion_getD (key : List Byte) {r : Nat} (h : r < 11) :
    (keyExpansion key).getD r [] = roundKey (keyWords key) r := by
  simp [keyExpansion, List.getD_eq_getElem?_getD, h]

/-- Round key `r` is 16 bytes of the schedule. -/
theorem slice_keyExpansion_roundKey (key : List Byte) {r : Nat} (h : r < 11) :
    slice (keyExpansion key).flatten (16 * r) 16 = (keyExpansion key).getD r [] := by
  refine slice_flatten (fun a ha => ?_) h
  obtain ⟨r, -, rfl⟩ := List.mem_map.1 ha
  rfl

theorem slice_roundKey (ws : List AesWord) (r : Nat) {j : Nat} (h : j < 4) :
    slice (roundKey ws r) (4 * j) 4 = aesWordBytes (ws.getD (4 * r + j) ⟨0, 0, 0, 0⟩) := by
  interval_cases j <;> rfl

/-- Word `i` is 4 bytes of the schedule: word `i % 4` of round key `i / 4`. -/
theorem slice_keyExpansion_word (key : List Byte) {i : Nat} (h : i < 44) :
    slice (keyExpansion key).flatten (4 * i) 4 = aesWordBytes (scheduleWord key i) := by
  have hr : i / 4 < 11 := by omega
  have hj : i % 4 < 4 := by omega
  calc slice (keyExpansion key).flatten (4 * i) 4
      = slice (slice (keyExpansion key).flatten (16 * (i / 4)) 16) (4 * (i % 4)) 4 := by
        rw [slice_slice _ _ (by omega)]
        congr 1
        omega
    _ = aesWordBytes ((keyWords key).getD (4 * (i / 4) + i % 4) ⟨0, 0, 0, 0⟩) := by
        rw [slice_keyExpansion_roundKey key hr, keyExpansion_getD key hr, slice_roundKey _ _ hj]
    _ = aesWordBytes (scheduleWord key i) := by
        rw [Nat.div_add_mod, keyWords_getD key h]

theorem slice_key_word (key : List Byte) {i : Nat} (h : 4 * i + 4 ≤ key.length) :
    slice key (4 * i) 4 = aesWordBytes (keyWord key i) := by
  refine eq_of_getD_eq (slice_length h) rfl fun k hk => ?_
  rw [slice_getD _ _ hk]
  interval_cases k <;> rfl

/-- The constants of R128 as the spec prints them, entry 0 unused. -/
theorem rcon_eq_getD : ∀ j < 11, rcon j = [0, 0x01, 0x02, 0x04, 0x08, 0x10, 0x20, 0x40, 0x80, 0x1b, 0x36].getD j 0 := by
  decide

theorem aesWordBytes_keyG (t : AesWord) (j : Nat) :
    aesWordBytes (keyG t j) = [sbox t.t1 ^^^ rcon j, sbox t.t2, sbox t.t3, sbox t.t0] := by
  simp [aesWordBytes, keyG, aesWordXor, subWord, rotWord]

/-- Settles O43: each word of the bytes is a word of the recurrence. -/
theorem keyExpansionRecurrence : Obligations.KeyExpansionRecurrence := by
  intro key hkey W rc g
  have hW {i : Nat} (hi : i < 44) : W i = aesWordBytes (scheduleWord key i) := slice_keyExpansion_word key hi
  have hg (t : AesWord) {j : Nat} (hj : j < 11) : g (aesWordBytes t) j = aesWordBytes (keyG t j) := by
    rw [aesWordBytes_keyG, rcon_eq_getD j hj]
    rfl
  refine ⟨keyExpansion_flatten_length key, fun i hi => ?_, fun i hlow hhigh => ?_⟩
  · rw [hW (by omega), scheduleWord_of_lt key hi, slice_key_word key (by omega)]
  · obtain ⟨k, rfl⟩ := Nat.exists_eq_add_of_le' hlow
    rw [hW hhigh, hW (by omega), hW (by omega), hg _ (by omega), Nat.add_sub_cancel, ← apply_ite aesWordBytes,
      scheduleWord]
    rfl

/-! ### AES: encryption from its stages -/

theorem addRoundKey_eq_xorBytes {s k : List Byte} (hs : s.length = 16) (hk : k.length = 16) :
    addRoundKey s k = xorBytes s k := by
  refine eq_of_getD_eq (addRoundKey_length s k) (by simp [xorBytes, hs, hk]) fun i hi => ?_
  rw [addRoundKey_getD _ _ hi, xorBytes_getD _ _ (by omega) (by omega)]

/-- Settles O44: the round keys are 16 bytes each of the schedule, and the first one is added by XOR. -/
theorem aesEncryptFromStageCommands : Obligations.AesEncryptFromStageCommands := by
  intro pt key hpt _ ks
  have hrk {r : Nat} (hr : r < 11) : (keyExpansion key).getD r [] = slice ks (16 * r) 16 :=
    (slice_keyExpansion_roundKey key hr).symm
  have hrounds (s : List Byte) :
      (List.range' 1 9).foldl (fun s r => aesRound s ((keyExpansion key).getD r [])) s =
        (List.range' 1 9).foldl (fun s r => aesRound s (slice ks (16 * r) 16)) s := by
    refine List.foldl_ext _ _ _ fun s r hr => ?_
    rw [List.mem_range'_1] at hr
    rw [hrk (by omega)]
  have hfirst : (slice ks 0 16).length = 16 := slice_length (by rw [keyExpansion_flatten_length]; decide)
  rw [aesEncrypt, hrounds, hrk (r := 0) (by decide), hrk (r := 10) (by decide), addRoundKey_eq_xorBytes hpt hfirst]

/-! ### AES: each layer loses nothing

The S-box has the inverse of R122, `ShiftRows` moves every entry of a block somewhere, `AddRoundKey` is an XOR, and four
times `MixColumns` is the identity. -/

/-- The sequences of 16 bytes: states, blocks and round keys (R120). -/
def aesBlocks : Set (List Byte) := {s | s.length = 16}

theorem subBytes_injOn : Set.InjOn subBytes aesBlocks := by
  intro a ha b hb hab
  refine eq_of_getD_eq ha hb fun i hi => ?_
  have hsbox : sbox (a.getD i 0) = sbox (b.getD i 0) := by rw [← subBytes_getD _ hi, hab, subBytes_getD _ hi]
  exact Function.LeftInverse.injective invSbox_sbox hsbox

theorem addRoundKey_injOn (k : List Byte) : Set.InjOn (addRoundKey · k) aesBlocks := by
  intro a ha b hb hab
  refine eq_of_getD_eq ha hb fun i hi => ?_
  have hxor : a.getD i 0 ^^^ k.getD i 0 = b.getD i 0 ^^^ k.getD i 0 := by
    rw [← addRoundKey_getD _ _ hi, ← addRoundKey_getD _ _ hi]
    exact congrArg (·.getD i 0) hab
  exact (BitVec.xor_left_inj _).1 hxor

theorem eq_of_rows_and_columns {a b : List Byte} (ha : a ∈ aesBlocks) (hb : b ∈ aesBlocks)
    (h : ∀ r < 4, ∀ c < 4, a.getD (r + 4 * c) 0 = b.getD (r + 4 * c) 0) : a = b := by
  refine eq_of_getD_eq ha hb fun i hi => ?_
  rw [← Nat.mod_add_div i 4]
  exact h _ (by omega) _ (by omega)

/-- Where `ShiftRows` puts row `r` of column `c`. -/
theorem shiftRows_getD_target (s : List Byte) {r c : Nat} (hr : r < 4) (hc : c < 4) :
    (shiftRows s).getD (r + 4 * ((c + 3 * r) % 4)) 0 = s.getD (r + 4 * c) 0 := by
  have hback : ((c + 3 * r) % 4 + r) % 4 = c := by omega
  rw [shiftRows_getD s hr (by omega), hback]

theorem shiftRows_injOn : Set.InjOn shiftRows aesBlocks := by
  intro a ha b hb hab
  refine eq_of_rows_and_columns ha hb fun r hr c hc => ?_
  rw [← shiftRows_getD_target a hr hc, hab, shiftRows_getD_target b hr hc]

/-! #### `MixColumns`, column by column -/

theorem bitVec_xor_left_comm {w : Nat} (x y z : BitVec w) : x ^^^ (y ^^^ z) = y ^^^ (x ^^^ z) := by
  ac_rfl

theorem bitVec_xor_xor_cancel {w : Nat} (x y : BitVec w) : x ^^^ (x ^^^ y) = y := by
  rw [← BitVec.xor_assoc, BitVec.xor_self, BitVec.zero_xor]

theorem gfMul_two_left (a : Byte) : gfMul 2#8 a = gfDouble a := (gfMul_comm 2 a).trans (gfMul_two_right a)

theorem gfMul_three_left (a : Byte) : gfMul 3#8 a = gfDouble a ^^^ a := by
  rw [show 3#8 = 2#8 ^^^ 1#8 from rfl, gfMul_xor_left, gfMul_two_left, gfMul_one_left]

/-- An entry after `MixColumns`, from the entry `a` and those one, two and three rows on: `2 a + 3 b + c + d`. -/
def mixByte (a b c d : Byte) : Byte := gfDouble (a ^^^ b) ^^^ (b ^^^ c ^^^ d)

/-- A column after `MixColumns`: every row of the matrix of R125 is the one above it, moved on by one. -/
def mixWord (w : AesWord) : AesWord :=
  ⟨mixByte w.t0 w.t1 w.t2 w.t3, mixByte w.t1 w.t2 w.t3 w.t0, mixByte w.t2 w.t3 w.t0 w.t1, mixByte w.t3 w.t0 w.t1 w.t2⟩

/-- Column `c` of a state stands where word `c` of a key does. -/
theorem keyWord_eq_column (s : List Byte) (c : Nat) :
    keyWord s c = ⟨s.getD (0 + 4 * c) 0, s.getD (1 + 4 * c) 0, s.getD (2 + 4 * c) 0, s.getD (3 + 4 * c) 0⟩ := by
  simp only [keyWord, Nat.zero_add, Nat.add_comm]

/-- The first row of the matrix of R125 times a column; the other rows are this one moved on. -/
theorem mixRow_eq_mixByte (a b c d : Byte) :
    gfMul 2#8 a ^^^ gfMul 3#8 b ^^^ gfMul 1#8 c ^^^ gfMul 1#8 d = mixByte a b c d := by
  rw [mixByte, gfDouble_xor, gfMul_two_left, gfMul_three_left, gfMul_one_left, gfMul_one_left]
  ac_rfl

theorem keyWord_mixColumns (s : List Byte) {c : Nat} (hc : c < 4) :
    keyWord (mixColumns s) c = mixWord (keyWord s c) := by
  have hrow {r} (hr : r < 4) := mixColumns_getD s hr hc
  rw [keyWord_eq_column, keyWord_eq_column, hrow (by decide), hrow (by decide), hrow (by decide), hrow (by decide)]
  simp only [mixWord, ← mixRow_eq_mixByte, AesWord.mk.injEq]
  refine ⟨rfl, ?_, ?_, ?_⟩ <;> simp only [mixMatrix, List.getD_cons_zero, List.getD_cons_succ] <;> ac_rfl

/-- `MixColumns` twice adds to an entry four times its sum with the entry two rows on. -/
theorem mixByte_mixByte (a b c d : Byte) :
    mixByte (mixByte a b c d) (mixByte b c d a) (mixByte c d a b) (mixByte d a b c) =
      a ^^^ gfDouble (gfDouble (a ^^^ c)) := by
  simp only [mixByte, gfDouble_xor, BitVec.xor_assoc, BitVec.xor_comm, bitVec_xor_left_comm, bitVec_xor_xor_cancel]

/-- `MixColumns` four times is the identity: the sum of two entries two rows apart stays when both have it added. -/
theorem mixWord_mixWord_involutive : Function.Involutive (mixWord ∘ mixWord) := by
  have htwice (a c : Byte) :
      a ^^^ gfDouble (gfDouble (a ^^^ c)) ^^^
        gfDouble (gfDouble (a ^^^ gfDouble (gfDouble (a ^^^ c)) ^^^ (c ^^^ gfDouble (gfDouble (c ^^^ a))))) = a := by
    simp only [gfDouble_xor, BitVec.xor_comm, bitVec_xor_left_comm, BitVec.xor_self, BitVec.xor_zero]
  intro w
  simp only [Function.comp_apply, mixWord, mixByte_mixByte, htwice]

theorem mixWord_injective : Function.Injective mixWord := mixWord_mixWord_involutive.injective.of_comp

theorem mixColumns_injOn : Set.InjOn mixColumns aesBlocks := by
  intro a ha b hb hab
  refine eq_of_rows_and_columns ha hb fun r hr c hc => ?_
  have hcol : keyWord a c = keyWord b c := by
    apply mixWord_injective
    rw [← keyWord_mixColumns a hc, hab, keyWord_mixColumns b hc]
  rw [keyWord_eq_column, keyWord_eq_column, AesWord.mk.injEq] at hcol
  obtain ⟨h0, h1, h2, h3⟩ := hcol
  interval_cases r <;> assumption

/-! #### The rounds -/

theorem aesRound_injOn (k : List Byte) : Set.InjOn (aesRound · k) aesBlocks := by
  intro a ha b hb hab
  have hmix := addRoundKey_injOn k (mixColumns_length _) (mixColumns_length _) hab
  have hshift := mixColumns_injOn (shiftRows_length _) (shiftRows_length _) hmix
  exact subBytes_injOn ha hb (shiftRows_injOn (subBytes_length _) (subBytes_length _) hshift)

theorem aesFinalRound_injOn (k : List Byte) : Set.InjOn (aesFinalRound · k) aesBlocks := by
  intro a ha b hb hab
  have hshift := addRoundKey_injOn k (shiftRows_length _) (shiftRows_length _) hab
  exact subBytes_injOn ha hb (shiftRows_injOn (subBytes_length _) (subBytes_length _) hshift)

/-- Any number of rounds, whatever their keys, loses nothing. -/
theorem foldl_aesRound_injOn (rk : Nat → List Byte) (l : List Nat) :
    Set.InjOn (fun s => l.foldl (fun s r => aesRound s (rk r)) s) aesBlocks := by
  induction l with
  | nil => exact Set.injOn_id _
  | cons r l ih => exact ih.comp (aesRound_injOn (rk r)) fun s _ => aesRound_length s (rk r)

theorem foldl_aesRound_mem_aesBlocks (rk : Nat → List Byte) (l : List Nat) {s : List Byte} (hs : s ∈ aesBlocks) :
    l.foldl (fun s r => aesRound s (rk r)) s ∈ aesBlocks :=
  List.foldlRecOn l _ hs fun s _ r _ => aesRound_length s (rk r)

theorem aesEncrypt_injOn (key : List Byte) : Set.InjOn (aesEncrypt · key) aesBlocks := by
  intro a ha b hb hab
  have hrounds (s) := foldl_aesRound_mem_aesBlocks (fun r => (keyExpansion key).getD r []) (List.range' 1 9)
    (addRoundKey_length s ((keyExpansion key).getD 0 []))
  have hlast := aesFinalRound_injOn _ (hrounds a) (hrounds b) hab
  have hfirst := foldl_aesRound_injOn _ _ (addRoundKey_length _ _) (addRoundKey_length _ _) hlast
  exact addRoundKey_injOn _ ha hb hfirst

/-- Settles O45: no layer loses anything, so neither does the encryption. -/
theorem aesEncryptIsInjective : Obligations.AesEncryptIsInjective :=
  fun key _ _ _ ha hb hab => aesEncrypt_injOn key ha hb hab

end Sys2Proof.Machine

namespace Sys2Proof.Machine

/-! ### The bytes of a 64-bit value (R11)

Packing a byte sequence into an integer and taking the bytes of it again undo each other. -/

/-- Two bit vectors are equal when their pieces of `k` bits are. -/
theorem eq_of_extractLsb'_eq {w k : Nat} (hk : 0 < k) {a b : BitVec w}
    (h : ∀ j, k * j < w → a.extractLsb' (k * j) k = b.extractLsb' (k * j) k) : a = b := by
  refine BitVec.eq_of_getLsbD_eq fun i hi => ?_
  have hpiece := congrArg (·.getLsbD (i % k)) (h (i / k) ((Nat.mul_div_le i k).trans_lt hi))
  simpa [Nat.mod_lt i hk, Nat.div_add_mod] using hpiece

/-- Bit `k` of byte `i` is bit `8 i + k` of the integer. -/
theorem testBit_leNat (b : List Byte) (i : Nat) {k : Nat} (hk : k < 8) :
    (leNat b).testBit (8 * i + k) = (b.getD i 0).getLsbD k := by
  induction b generalizing i with
  | nil => simp [leNat]
  | cons a b ih =>
    rw [leNat, Nat.add_comm, Nat.testBit_two_pow_mul_add (i := 8) _ a.isLt]
    cases i with
    | zero => simp [hk, BitVec.getLsbD]
    | succ i =>
      rw [if_neg (by omega), show 8 * (i + 1) + k - 8 = 8 * i + k by omega, ih, List.getD_cons_succ]

theorem byteOf_ofNat_leNat {w : Nat} (b : List Byte) {i : Nat} (h : 8 * i + 8 ≤ w) :
    byteOf (BitVec.ofNat w (leNat b)) i = b.getD i 0 := by
  refine BitVec.eq_of_getLsbD_eq fun k hk => ?_
  have hlt : 8 * i + k < w := by omega
  rw [byteOf, BitVec.getLsbD_extractLsb', BitVec.getLsbD_ofNat, testBit_leNat b i hk]
  simp only [hk, hlt, decide_true, Bool.true_and]

theorem toLE64_getD (v : DWord) {i : Nat} (h : i < 8) : (toLE64 v).getD i 0 = byteOf v i := by
  interval_cases i <;> rfl

theorem toLE64_le64 {b : List Byte} (h : b.length = 8) : toLE64 (le64 b) = b := by
  refine eq_of_getD_eq (toLE64_length _) h fun i hi => ?_
  rw [toLE64_getD _ hi, le64, byteOf_ofNat_leNat b (by omega)]

theorem le64_toLE64 (v : DWord) : le64 (toLE64 v) = v := by
  refine eq_of_extractLsb'_eq (k := 8) (by decide) fun i hi => ?_
  have hbyte := byteOf_ofNat_leNat (w := 64) (toLE64 v) (i := i) (by omega)
  exact hbyte.trans (toLE64_getD v (by omega))

theorem be64_eq_le64_reverse (b : List Byte) : be64 b = le64 b.reverse := rfl

theorem toBE64_be64 {b : List Byte} (h : b.length = 8) : toBE64 (be64 b) = b := by
  rw [be64_eq_le64_reverse, toBE64, toLE64_le64 (by simpa using h), List.reverse_reverse]

theorem be64_toBE64 (v : DWord) : be64 (toBE64 v) = v := by
  rw [be64_eq_le64_reverse, toBE64, List.reverse_reverse, le64_toLE64]

/-! ### Two commands one after the other

What the second of two completed commands reads, and when it takes back the first. -/

theorem State.bytesAt_length (s : State) (p : Word) (n : Nat) : (s.bytesAt p n).length = n := s.mem.readBytes_length _ n

theorem State.bytesAt_getD (s : State) (p : Word) {n i : Nat} (h : i < n) :
    (s.bytesAt p n).getD i 0 = s.mem.read (p.toNat + i) :=
  s.mem.readBytes_getD _ n h

/-- The row of R88 of a command is the same in states with the same operand registers. -/
theorem SameRegisters.operandsOf_eq {s t : State} (h : SameRegisters s t) (i : Instr) : operandsOf t i = operandsOf s i := by
  obtain ⟨hsrc, hdst, hlen, hkeyp, hkeylen, hivp, hctrlo, hctrhi⟩ := h
  refine operandsOf_congr fun r hr => ?_
  cases r
  case status => cases i <;> simp [usedRegs, tableRow] at hr
  all_goals simp [*]

section
variable {s t : State} {p : Word} {n : Nat} {out : List Byte}

/-- The checks of a command give the same answer after another command as before it. -/
theorem Completed.firstError_eq (h : Completed s t p n out) (i : Instr) :
    (operandsOf t i).firstError t.memSize = (operandsOf s i).firstError s.memSize := by
  obtain ⟨hsize, -, -⟩ := h.surroundings
  rw [h.registers.operandsOf_eq, hsize]

theorem Completed.bytesAt_output (h : Completed s t p n out) : t.bytesAt p n = out := by
  refine eq_of_getD_eq (t.bytesAt_length p n) h.size fun i hi => ?_
  rw [State.bytesAt_getD t p hi, h.written i hi]

theorem Completed.bytesAt_of_apart (h : Completed s t p n out) {q : Word} {m : Nat} (hapart : Apart q m p n) :
    t.bytesAt q m = s.bytesAt q m := by
  refine eq_of_getD_eq (t.bytesAt_length q m) (s.bytesAt_length q m) fun i hi => ?_
  rw [State.bytesAt_getD t q hi, State.bytesAt_getD s q hi]
  exact h.frame _ (by omega)

/-- A command that writes back the bytes another one wrote over restores all of `MEM`. -/
theorem Completed.read_restored {u : State} (h : Completed s t p n out) (h' : Completed t u p n (s.bytesAt p n)) (a : Nat) :
    u.mem.read a = s.mem.read a := by
  by_cases ha : a < p.toNat ∨ p.toNat + n ≤ a
  · exact (h'.frame a ha).trans (h.frame a ha)
  · obtain ⟨i, rfl⟩ := Nat.exists_eq_add_of_le (show p.toNat ≤ a by omega)
    have hi : i < n := by omega
    rw [h'.written i hi, State.bytesAt_getD s p hi]
end

/-! ### PRESENT: the layers by bit and by nibble (R150 to R154) -/

theorem pPos_lt {i : Nat} (h : i < 64) : pPos i < 64 := by
  unfold pPos
  split <;> omega

/-- The map of log entry 6 takes `P` back. -/
theorem pPosInv_pPos {i : Nat} (h : i < 64) : pPosInv (pPos i) = i := by
  by_cases hi : i < 63
  · have hmod : 16 * i % 63 < 63 := Nat.mod_lt _ (by decide)
    rw [pPos, if_pos hi, pPosInv, if_pos hmod]
    omega
  · obtain rfl : i = 63 := by omega
    rfl

theorem pLayer_getLsbD (b : DWord) {i : Nat} (h : i < 64) : (pLayer b).getLsbD (pPos i) = b.getLsbD i := by
  rw [pLayer, getLsbD_ofBits _ _ (pPos_lt h), pPosInv_pPos h]

theorem pLayerInv_getLsbD (b : DWord) {i : Nat} (h : i < 64) : (pLayerInv b).getLsbD i = b.getLsbD (pPos i) :=
  getLsbD_ofBits _ _ h

theorem pLayerInv_pLayer (b : DWord) : pLayerInv (pLayer b) = b := by
  refine BitVec.eq_of_getLsbD_eq fun i hi => ?_
  rw [pLayerInv_getLsbD _ hi, pLayer_getLsbD _ hi]

/-- Each nibble goes through the function, independently and in place. -/
theorem mapNibbles_extractLsb' (f : BitVec 4 → BitVec 4) (b : DWord) {j : Nat} (h : j < 16) :
    (mapNibbles f b).extractLsb' (4 * j) 4 = f (b.extractLsb' (4 * j) 4) := by
  refine BitVec.eq_of_getLsbD_eq fun k hk => ?_
  have hnibble : (4 * j + k) / 4 = j := by omega
  have hbit : (4 * j + k) % 4 = k := by omega
  rw [BitVec.getLsbD_extractLsb', mapNibbles, getLsbD_ofBits _ _ (by omega), hnibble, hbit]
  simp [hk]

theorem mapNibbles_leftInverse {f g : BitVec 4 → BitVec 4} (h : Function.LeftInverse g f) :
    Function.LeftInverse (mapNibbles g) (mapNibbles f) := by
  intro b
  refine eq_of_extractLsb'_eq (k := 4) (by decide) fun j hj => ?_
  have hj : j < 16 := by omega
  rw [mapNibbles_extractLsb' _ _ hj, mapNibbles_extractLsb' _ _ hj, h]

theorem presentInvSbox_presentSbox : ∀ x, presentInvSbox (presentSbox x) = x := by decide

theorem presentSbox_presentInvSbox : ∀ x, presentSbox (presentInvSbox x) = x := by decide

theorem sBoxLayerInv_sBoxLayer (b : DWord) : sBoxLayerInv (sBoxLayer b) = b :=
  mapNibbles_leftInverse presentInvSbox_presentSbox b

/-- `P` as R153 prints it. -/
theorem pPos_eq {i : Nat} (h : i < 64) : pPos i = if i = 63 then 63 else 16 * i % 63 := by
  unfold pPos
  split <;> split <;> omega

/-- Settles O48: each layer by its bits or nibbles, and the tables undo each other entry by entry. -/
theorem presentLayersByBitAndNibble : Obligations.PresentLayersByBitAndNibble := by
  refine ⟨fun b => ⟨fun i hi => ?_, fun j hj => ⟨mapNibbles_extractLsb' _ _ hj, mapNibbles_extractLsb' _ _ hj⟩,
    pLayerInv_pLayer b, sBoxLayerInv_sBoxLayer b⟩, by decide,
    fun x => ⟨presentInvSbox_presentSbox x, presentSbox_presentInvSbox x⟩⟩
  intro P
  have hP : pPos i = P := pPos_eq hi
  exact ⟨hP ▸ pLayer_getLsbD b hi, hP ▸ pLayerInv_getLsbD b hi⟩

/-! ### PRESENT: decryption takes encryption back (R159 to R161) -/

theorem presentInvRound_presentRound (b k : DWord) : presentInvRound (presentRound b k) k = b := by
  rw [presentInvRound, presentRound, pLayerInv_pLayer, sBoxLayerInv_sBoxLayer, BitVec.xor_assoc, BitVec.xor_self,
    BitVec.xor_zero]

/-- The rounds of R160 with the keys backward take back the rounds of R159. -/
theorem foldl_presentInvRound_foldl_presentRound (ks : List DWord) (b : DWord) :
    ks.reverse.foldl presentInvRound (ks.foldl presentRound b) = b := by
  induction ks generalizing b with
  | nil => rfl
  | cons k ks ih =>
    rw [List.reverse_cons, List.foldl_append, List.foldl_cons (f := presentRound), ih]
    exact presentInvRound_presentRound b k

theorem presentDecryptWith_presentEncryptWith (sk : List DWord) (b : DWord) :
    presentDecryptWith sk (presentEncryptWith sk b) = b := by
  rw [presentDecryptWith, presentEncryptWith, BitVec.xor_assoc, BitVec.xor_self, BitVec.xor_zero,
    foldl_presentInvRound_foldl_presentRound]

theorem presentDecrypt_presentEncrypt (p : Param) (m : DWord) (key : List Byte) :
    presentDecrypt p (presentEncrypt p m key) key = m :=
  presentDecryptWith_presentEncryptWith _ m

/-- Settles O46: the same 32 subkeys are used backward, and each round takes back its round. -/
theorem presentDecryptUndoesEncrypt : Obligations.PresentDecryptUndoesEncrypt :=
  fun p key m _ => presentDecrypt_presentEncrypt p m key

/-! ### PRESENT: the three commands (R162 to R164) -/

section
variable {s : State} {p : Param} (hvariant : (p = 0 ∧ s.keylen = 10) ∨ (p = 1 ∧ s.keylen = 16))
include hvariant

theorem presentVariant_legal : paramPresent p = true ∧ (s.keylen.toNat == presentKeyLen p) = true := by
  rcases hvariant with ⟨rfl, hkeylen⟩ | ⟨rfl, hkeylen⟩ <;> rw [hkeylen] <;> decide

/-- No check of `PRESENT.KEYSCHED` fails. -/
theorem operandsPresentKeysched_legal (hkey : s.inMem s.keyp s.keylen.toNat) (hdst : s.inMem s.dst 256) :
    (operandsPresentKeysched p s).firstError s.memSize = none := by
  obtain ⟨hparam, hkeylen⟩ := presentVariant_legal hvariant
  have hranges : (operandsPresentKeysched p s).ranges = [⟨s.keyp.toNat, s.keylen.toNat⟩, ⟨s.dst.toNat, 256⟩] := rfl
  rw [Operands.firstError_eq_none_iff, hranges]
  refine ⟨hparam, hkeylen, rfl, ?_⟩
  simp only [List.forall_mem_cons, Range.inside_iff]
  exact ⟨hkey, hdst, by simp⟩

/-- No check of the row shared by `PRESENT.ENC` and `PRESENT.DEC` fails. -/
theorem operandsPresentBlock_legal (hlen : s.len = 8) (hkey : s.inMem s.keyp s.keylen.toNat) (hsrc : s.inMem s.src 8)
    (hdst : s.inMem s.dst 8) : (operandsPresentBlock p s).firstError s.memSize = none := by
  obtain ⟨hparam, hkeylen⟩ := presentVariant_legal hvariant
  have hranges : (operandsPresentBlock p s).ranges =
      [⟨s.keyp.toNat, s.keylen.toNat⟩, ⟨s.src.toNat, 8⟩, ⟨s.dst.toNat, 8⟩] := rfl
  rw [Operands.firstError_eq_none_iff, hranges]
  refine ⟨hparam, hkeylen, by simp [operandsPresentBlock, hlen], ?_⟩
  simp only [List.forall_mem_cons, Range.inside_iff]
  exact ⟨hkey, hsrc, hdst, by simp⟩
end

section
variable {s : State} {p : Param} (hlegal : (operandsPresentBlock p s).firstError s.memSize = none)
include hlegal

theorem exec_presentEnc_completed :
    ∃ t, exec (.presentEnc p) s = .next t ∧
      Completed s t s.dst 8
        (toBE64 (presentEncrypt p (be64 (s.bytesAt s.src 8)) (s.bytesAt s.keyp s.keylen.toNat))) :=
  exec_completed (i := .presentEnc p) (by simp) hlegal rfl

theorem exec_presentDec_completed :
    ∃ t, exec (.presentDec p) s = .next t ∧
      Completed s t s.dst 8
        (toBE64 (presentDecrypt p (be64 (s.bytesAt s.src 8)) (s.bytesAt s.keyp s.keylen.toNat))) :=
  exec_completed (i := .presentDec p) (by simp) hlegal rfl
end

/-- Settles O47: the second command finds the first one's output as its block and the same key, and writes back the block that
stood there. -/
theorem presentDecAfterEncRestoresMemory : Obligations.PresentDecAfterEncRestoresMemory := by
  intro s p hvariant hlen hinPlace hkey hsrc hapart
  have hlegal := operandsPresentBlock_legal hvariant hlen hkey hsrc (hinPlace ▸ hsrc)
  obtain ⟨t, ht, henc⟩ := exec_presentEnc_completed hlegal
  obtain ⟨u, hu, hdec⟩ := exec_presentDec_completed (s := t) ((henc.firstError_eq (.presentEnc p)).trans hlegal)
  obtain ⟨htsrc, htdst, -, htkeyp, htkeylen, -, -, -⟩ := henc.registers
  rw [hinPlace] at henc htdst
  rw [htdst, htsrc, htkeyp, htkeylen, henc.bytesAt_output, henc.bytesAt_of_apart hapart, be64_toBE64,
    presentDecrypt_presentEncrypt, toBE64_be64 (s.bytesAt_length _ _)] at hdec
  exact ⟨t, u, ht, hu, henc.read_restored hdec⟩

/-! ### PRESENT: the rounds with numbered subkeys (R159, R160) -/

theorem take_eq_map_getD {α : Type} (l : List α) (d : α) {n : Nat} (h : n ≤ l.length) :
    l.take n = (List.range n).map (l.getD · d) := by
  refine List.ext_getElem (by simpa using h) fun i hi hi' => ?_
  have hlt : i < l.length := by
    rw [List.length_take] at hi
    omega
  simp [hlt]

section
variable (p : Param) (key : List Byte) (m : DWord)

theorem presentKeySchedule_take :
    (presentKeySchedule p key).take 31 = (List.range 31).map ((presentKeySchedule p key).getD · 0) :=
  take_eq_map_getD _ 0 (by simp)

theorem presentEncrypt_eq_foldl :
    presentEncrypt p m key =
      (List.range 31).foldl (fun b i => pLayer (sBoxLayer (b ^^^ (presentKeySchedule p key).getD i 0))) m ^^^
        (presentKeySchedule p key).getD 31 0 := by
  rw [presentEncrypt, presentEncryptWith, presentKeySchedule_take, List.foldl_map]
  rfl

theorem presentDecrypt_eq_foldl :
    presentDecrypt p m key =
      (List.range 31).foldl (fun b i => sBoxLayerInv (pLayerInv b) ^^^ (presentKeySchedule p key).getD (30 - i) 0)
        (m ^^^ (presentKeySchedule p key).getD 31 0) := by
  have hdown : (List.range 31).reverse = (List.range 31).map (30 - ·) := by decide
  rw [presentDecrypt, presentDecryptWith, presentKeySchedule_take, ← List.map_reverse, hdown, List.map_map, List.foldl_map]
  rfl
end

/-- Settles O26: no check of the shared row fails, and the rounds take the subkeys in order or backward. -/
theorem presentBlockCommandsComplete : Obligations.PresentBlockCommandsComplete := by
  refine ⟨fun s p hvariant hlen hkey hsrc hdst => ?_, fun p key m _ =>
    ⟨presentEncrypt_eq_foldl p key m, presentDecrypt_eq_foldl p key m⟩⟩
  have hlegal := operandsPresentBlock_legal hvariant hlen hkey hsrc hdst
  exact ⟨exec_presentEnc_completed hlegal, exec_presentDec_completed hlegal⟩

/-! ### PRESENT: the key schedule (R155 to R158) -/

/-- Bit `i` after a rotation is the one `r` positions below it, around. -/
theorem rotateLeft_getLsbD {w r i : Nat} (x : BitVec w) (hr : r < w) (hi : i < w) :
    (x.rotateLeft r).getLsbD i = x.getLsbD ((i + (w - r)) % w) := by
  rw [BitVec.getLsbD_rotateLeft, Nat.mod_eq_of_lt hr]
  by_cases hlt : i < r
  · rw [Nat.mod_eq_of_lt (by omega), Nat.add_comm]
    simp [hlt]
  · rw [show i + (w - r) = i - r + w by omega, Nat.add_mod_right, Nat.mod_eq_of_lt (by omega)]
    simp [hlt, hi]

/-- A field that does not come from around the end is the one `r` positions below it. -/
theorem rotateLeft_extractLsb' {w r start len : Nat} (x : BitVec w) (hr : r ≤ start) (hend : start + len ≤ w) :
    (x.rotateLeft r).extractLsb' start len = x.extractLsb' (start - r) len := by
  refine BitVec.eq_of_getLsbD_eq fun i hi => ?_
  have hsource : (start + i + (w - r)) % w = start - r + i := by
    rw [show start + i + (w - r) = start - r + i + w by omega, Nat.add_mod_right, Nat.mod_eq_of_lt (by omega)]
  rw [BitVec.getLsbD_extractLsb', BitVec.getLsbD_extractLsb', rotateLeft_getLsbD x (by omega) (by omega), hsource]

/-- The round counter stands in bits `n + 4 .. n` of the value that is added to the register. -/
theorem counter_getLsbD {w : Nat} (i : BitVec 5) (n : Nat) {b : Nat} (hb : b < w) :
    (i.setWidth w <<< n).getLsbD b = (decide (n ≤ b) && i.getLsbD (b - n)) := by
  simp [hb, ← decide_not]

theorem counter_extractLsb'_eq_zero {w n start : Nat} (i : BitVec 5) (len : Nat) (h : n + 5 ≤ start) :
    (i.setWidth w <<< n).extractLsb' start len = 0#len := by
  refine BitVec.eq_of_getLsbD_eq fun k hk => ?_
  have hpast : i.getLsbD (start + k - n) = false := BitVec.getLsbD_of_ge _ _ (by omega)
  simp [hpast]

section
variable (K : BitVec 80) (i : BitVec 5)

theorem presentUpdate80_getLsbD {b : Nat} (hb : b < 76) :
    (presentUpdate80 K i).getLsbD b = (K.getLsbD ((b + 19) % 80) ^^ (decide (15 ≤ b) && i.getLsbD (b - 15))) := by
  have hlt : b < 80 := by omega
  rw [presentUpdate80, BitVec.getLsbD_xor, counter_getLsbD i 15 hlt, BitVec.getLsbD_append, if_pos hb,
    BitVec.getLsbD_extractLsb', Nat.zero_add, rotateLeft_getLsbD K (by decide) hlt]
  simp [hb]

theorem presentUpdate80_top : (presentUpdate80 K i).extractLsb' 76 4 = presentSbox (K.extractLsb' 15 4) := by
  rw [presentUpdate80, BitVec.extractLsb'_xor, counter_extractLsb'_eq_zero i 4 (by decide), BitVec.xor_zero,
    BitVec.extractLsb'_append_eq_left, rotateLeft_extractLsb' K (by decide) (by decide)]
end

section
variable (K : BitVec 128) (i : BitVec 5)

theorem presentUpdate128_getLsbD {b : Nat} (hb : b < 120) :
    (presentUpdate128 K i).getLsbD b = (K.getLsbD ((b + 67) % 128) ^^ (decide (62 ≤ b) && i.getLsbD (b - 62))) := by
  have hlt : b < 128 := by omega
  have hlt' : b < 124 := by omega
  rw [presentUpdate128, BitVec.getLsbD_xor, counter_getLsbD i 62 hlt, BitVec.getLsbD_append, if_pos hlt',
    BitVec.getLsbD_append, if_pos hb, BitVec.getLsbD_extractLsb', Nat.zero_add, rotateLeft_getLsbD K (by decide) hlt]
  simp [hb]

theorem presentUpdate128_top : (presentUpdate128 K i).extractLsb' 124 4 = presentSbox (K.extractLsb' 63 4) := by
  rw [presentUpdate128, BitVec.extractLsb'_xor, counter_extractLsb'_eq_zero i 4 (by decide), BitVec.xor_zero,
    BitVec.extractLsb'_append_eq_left, rotateLeft_extractLsb' K (by decide) (by decide)]

theorem presentUpdate128_second : (presentUpdate128 K i).extractLsb' 120 4 = presentSbox (K.extractLsb' 59 4) := by
  rw [presentUpdate128, BitVec.extractLsb'_xor, counter_extractLsb'_eq_zero i 4 (by decide), BitVec.xor_zero,
    BitVec.extractLsb'_append_eq_of_add_le (by decide), BitVec.extractLsb'_append_eq_left,
    rotateLeft_extractLsb' K (by decide) (by decide)]
end

/-- Subkey `j` is the top of the register after `j` updates, the counter going up by one each time (R158). -/
theorem presentSubkeys_getD {w : Nat} (update : BitVec w → BitVec 5 → BitVec w) (n i : Nat) (k : BitVec w) {j : Nat}
    (hj : j ≤ n) :
    (presentSubkeys update n i k).getD j 0 =
      presentTop64 ((List.range' i j).foldl (fun k i => update k (BitVec.ofNat 5 i)) k) := by
  induction n generalizing i k j with
  | zero =>
    obtain rfl := Nat.le_zero.1 hj
    rfl
  | succ n ih =>
    cases j with
    | zero => rfl
    | succ j => exact ih (i + 1) _ (Nat.le_of_succ_le_succ hj)

/-- Byte `t` of the key stands below the `t` bytes before it, `key[0]` on top (R155). -/
theorem presentLoad_extractLsb' {n t : Nat} {key : List Byte} (hn : 8 * key.length = n) (ht : t < key.length) :
    (presentLoad n key).extractLsb' (n - 8 - 8 * t) 8 = key.getD t 0 := by
  have hbyte := byteOf_ofNat_leNat (w := n) key.reverse (i := key.length - 1 - t) (by omega)
  rw [List.getD_reverse _ (by omega), show key.length - 1 - (key.length - 1 - t) = t by omega] at hbyte
  rw [← hbyte, byteOf, show n - 8 - 8 * t = 8 * (key.length - 1 - t) by omega]
  rfl

/-- Settles O25: no check fails; one update by its fields, and the schedule by its number of updates. -/
theorem presentKeyschedCompletes : Obligations.PresentKeyschedCompletes := by
  refine ⟨fun s p hvariant hkey hdst => ?_, fun K i => ⟨fun b hb => presentUpdate80_getLsbD K i hb, presentUpdate80_top K i⟩,
    fun K i => ⟨fun b hb => presentUpdate128_getLsbD K i hb, presentUpdate128_top K i, presentUpdate128_second K i⟩, ?_, ?_⟩
  · exact exec_completed (i := .presentKeysched p) (by simp) (operandsPresentKeysched_legal hvariant hkey hdst) rfl
  · intro key hkey K
    exact ⟨presentKeySchedule_length 0 key, fun j hj => presentSubkeys_getD presentUpdate80 31 1 _ (Nat.le_of_lt_succ hj),
      fun t ht => presentLoad_extractLsb' (by rw [hkey]) (hkey ▸ ht)⟩
  · intro key hkey K
    exact ⟨presentKeySchedule_length 1 key, fun j hj => presentSubkeys_getD presentUpdate128 31 1 _ (Nat.le_of_lt_succ hj),
      fun t ht => presentLoad_extractLsb' (by rw [hkey]) (hkey ▸ ht)⟩

end Sys2Proof.Machine

namespace Sys2Proof.Machine

/-! ### Stream encryption byte by byte (R183 to R185)

Byte `i` of the output is byte `i` of the input XORed with one keystream byte, which the input does not reach. -/

/-- Byte `i` of the keystream: byte `i mod 64` of the block at counter `ctr + i div 64` (R183). -/
def keystreamByte (block : DWord → List Byte) (ctr : DWord) (i : Nat) : Byte :=
  (block (ctr + BitVec.ofNat 64 (i / 64))).getD (i % 64) 0

section
variable {block : DWord → List Byte} (ctr : DWord)

theorem keystreamByte_of_lt {i : Nat} (h : i < 64) : keystreamByte block ctr i = (block ctr).getD i 0 := by
  simp [keystreamByte, Nat.div_eq_of_lt h, Nat.mod_eq_of_lt h]

/-- The keystream from `k` blocks on is the one that starts at the counter advanced by `k`. -/
theorem keystreamByte_block_add (k i : Nat) :
    keystreamByte block ctr (64 * k + i) = keystreamByte block (ctr + BitVec.ofNat 64 k) i := by
  rw [keystreamByte, Nat.mul_add_div (by decide), Nat.mul_add_mod, BitVec.ofNat_add, ← BitVec.add_assoc, keystreamByte]

variable (hb : ∀ c, (block c).length = 64)
include hb

theorem streamXorFrom_getD {q i : Nat} {m : List Byte} (hi : i < m.length) (hq : i < 64 * q) :
    (streamXorFrom block q ctr m).getD i 0 = m.getD i 0 ^^^ keystreamByte block ctr i := by
  induction q generalizing ctr i m with
  | zero => omega
  | succ q ih =>
    have hlen : (xorBytes (m.take 64) (block ctr)).length = min 64 m.length := by simp [xorBytes, hb]
    rw [streamXorFrom]
    by_cases h : i < 64
    · rw [List.getD_append _ _ _ _ (by omega), xorBytes_getD _ _ (by rw [List.length_take]; omega) (by rw [hb]; exact h),
        keystreamByte_of_lt ctr h]
      simp [List.getD_eq_getElem?_getD, h]
    · obtain ⟨j, rfl⟩ := Nat.exists_eq_add_of_le (Nat.le_of_not_lt h)
      have hfirst : (xorBytes (m.take 64) (block ctr)).length = 64 := by omega
      rw [List.getD_append_right _ _ _ _ (by omega), hfirst, Nat.add_sub_cancel_left,
        ih (ctr + 1) (by rw [List.length_drop]; omega) (by omega), keystreamByte_block_add ctr 1 j]
      simp [List.getD_eq_getElem?_getD]

theorem streamXor_getD {i : Nat} {m : List Byte} (hi : i < m.length) :
    (streamXor block ctr m).getD i 0 = m.getD i 0 ^^^ keystreamByte block ctr i :=
  streamXorFrom_getD ctr hb hi (by omega)

theorem streamXor_streamXor (m : List Byte) : streamXor block ctr (streamXor block ctr m) = m := by
  have hlen (m) := streamXor_length hb ctr m
  refine eq_of_getD_eq ((hlen _).trans (hlen m)) rfl fun i hi => ?_
  rw [streamXor_getD ctr hb ((hlen m).symm ▸ hi), streamXor_getD ctr hb hi, BitVec.xor_assoc, BitVec.xor_self, BitVec.xor_zero]

/-- A stream splits after any number of whole blocks. -/
theorem streamXor_append {k : Nat} {m₁ : List Byte} (h : m₁.length = 64 * k) (m₂ : List Byte) :
    streamXor block ctr (m₁ ++ m₂) =
      streamXor block ctr m₁ ++ streamXor block (ctr + BitVec.ofNat 64 k) m₂ := by
  have hlen (c m) := streamXor_length hb c m
  refine eq_of_getD_eq (hlen ctr _) (by simp [hlen]) fun i hi => ?_
  rw [streamXor_getD ctr hb hi]
  by_cases hfirst : i < m₁.length
  · rw [List.getD_append _ _ _ _ hfirst, List.getD_append _ _ _ _ (by rwa [hlen]), streamXor_getD ctr hb hfirst]
  · obtain ⟨j, rfl⟩ := Nat.exists_eq_add_of_le (Nat.le_of_not_lt hfirst)
    rw [List.getD_append_right _ _ _ _ (Nat.le_add_right _ _),
      List.getD_append_right _ _ _ _ (by rw [hlen]; exact Nat.le_add_right _ _), hlen, Nat.add_sub_cancel_left,
      streamXor_getD _ hb (by rw [List.length_append] at hi; omega), h, keystreamByte_block_add]

/-- Encrypting zeros gives the keystream, block by block. -/
theorem slice_streamXor_zeros {N q : Nat} (h : N < q) :
    slice (streamXor block 0 (List.replicate (64 * q) 0)) (64 * N) 64 = block (BitVec.ofNat 64 N) := by
  have hlen : (streamXor block 0 (List.replicate (64 * q) 0)).length = 64 * q := by simp [streamXor_length hb]
  refine eq_of_getD_eq (slice_length (by omega)) (hb _) fun i hi => ?_
  rw [slice_getD _ _ hi, streamXor_getD 0 hb (by rw [List.length_replicate]; omega), keystreamByte_block_add,
    keystreamByte_of_lt _ hi, List.getD_replicate _ (by omega)]
  simp
end

/-- Settles O49, for every block function that gives 64 bytes. -/
theorem streamXorIsItsOwnInverse : Obligations.StreamXorIsItsOwnInverse := by
  intro R key nonce c m
  exact ⟨streamXor_streamXor c (chachaBlock_length R key nonce) m, streamXor_streamXor c (salsaBlock_length R key nonce) m⟩

/-- Settles O50, for every block function that gives 64 bytes. -/
theorem streamBlocksAreIndependent : Obligations.StreamBlocksAreIndependent := by
  intro R key nonce
  have hchacha := chachaBlock_length R key nonce
  have hsalsa := salsaBlock_length R key nonce
  refine ⟨fun N q h => ?_, fun c k m₁ m₂ h => ?_⟩
  · exact ⟨slice_streamXor_zeros hchacha h, slice_streamXor_zeros hsalsa h⟩
  · exact ⟨streamXor_append c hchacha h m₂, streamXor_append c hsalsa h m₂⟩

/-! ### ChaCha and Salsa: the commands (R186 to R194) -/

theorem State.ctr_eq_ofNat (s : State) : s.ctr = BitVec.ofNat 64 (s.ctrhi.toNat * 2 ^ 32 + s.ctrlo.toNat) := by
  refine BitVec.eq_of_toNat_eq ?_
  have hlow := s.ctrlo.isLt
  have hhigh := s.ctrhi.isLt
  rw [State.ctr, BitVec.toNat_append, BitVec.toNat_ofNat, Nat.mod_eq_of_lt (by omega), ← Nat.shiftLeft_add_eq_or_of_lt hlow,
    Nat.shiftLeft_eq]

theorem roundCount_of_variant {p : Param} {R : Nat} (h : (p = 0 ∧ R = 20) ∨ (p = 1 ∧ R = 12) ∨ (p = 2 ∧ R = 8)) :
    paramRounds p = true ∧ roundCount p = R := by
  rcases h with ⟨rfl, rfl⟩ | ⟨rfl, rfl⟩ | ⟨rfl, rfl⟩ <;> decide

theorem streamKeyLen_legal {n : Word} (h : n = 16 ∨ n = 32) : streamKeyLen n = true := by
  rcases h with rfl | rfl <;> decide

section
variable {s : State} {p : Param}

/-- No check of the row shared by `CHACHA.QR` and `SALSA.QR` fails. -/
theorem operandsQr_legal (hlen : s.len = 16) (hsrc : s.inMem s.src 16) (hdst : s.inMem s.dst 16) :
    (operandsQr 0 s).firstError s.memSize = none := by
  have hranges : (operandsQr 0 s).ranges = [⟨s.src.toNat, 16⟩, ⟨s.dst.toNat, 16⟩] := rfl
  rw [Operands.firstError_eq_none_iff, hranges]
  refine ⟨rfl, rfl, by simp [operandsQr, hlen], ?_⟩
  simp only [List.forall_mem_cons, Range.inside_iff]
  exact ⟨hsrc, hdst, by simp⟩

/-- No check of the row shared by `CHACHA.CORE` and `SALSA.CORE` fails. -/
theorem operandsCore_legal (hparam : paramRounds p = true) (hlen : s.len = 64) (hsrc : s.inMem s.src 64)
    (hdst : s.inMem s.dst 64) : (operandsCore p s).firstError s.memSize = none := by
  have hranges : (operandsCore p s).ranges = [⟨s.src.toNat, 64⟩, ⟨s.dst.toNat, 64⟩] := rfl
  rw [Operands.firstError_eq_none_iff, hranges]
  refine ⟨hparam, rfl, by simp [operandsCore, hlen], ?_⟩
  simp only [List.forall_mem_cons, Range.inside_iff]
  exact ⟨hsrc, hdst, by simp⟩

/-- No check of the row shared by `CHACHA20.BLOCK` and `SALSA20.BLOCK` fails. -/
theorem operandsBlock_legal (hparam : paramRounds p = true) (hkeylen : s.keylen = 16 ∨ s.keylen = 32)
    (hkey : s.inMem s.keyp s.keylen.toNat) (hiv : s.inMem s.ivp 8) (hdst : s.inMem s.dst 64) :
    (operandsBlock p s).firstError s.memSize = none := by
  have hranges : (operandsBlock p s).ranges =
      [⟨s.keyp.toNat, s.keylen.toNat⟩, ⟨s.ivp.toNat, 8⟩, ⟨s.dst.toNat, 64⟩] := rfl
  rw [Operands.firstError_eq_none_iff, hranges]
  refine ⟨hparam, streamKeyLen_legal hkeylen, rfl, ?_⟩
  simp only [List.forall_mem_cons, Range.inside_iff]
  exact ⟨hkey, hiv, hdst, by simp⟩

/-- No check of the row shared by `CHACHA20.XOR` and `SALSA20.XOR` fails. -/
theorem operandsStreamXor_legal (hparam : paramRounds p = true) (hkeylen : s.keylen = 16 ∨ s.keylen = 32)
    (hkey : s.inMem s.keyp s.keylen.toNat) (hiv : s.inMem s.ivp 8) (hsrc : s.inMem s.src s.len.toNat)
    (hdst : s.inMem s.dst s.len.toNat) : (operandsStreamXor p s).firstError s.memSize = none := by
  have hranges : (operandsStreamXor p s).ranges =
      [⟨s.keyp.toNat, s.keylen.toNat⟩, ⟨s.ivp.toNat, 8⟩, ⟨s.src.toNat, s.len.toNat⟩, ⟨s.dst.toNat, s.len.toNat⟩] := rfl
  rw [Operands.firstError_eq_none_iff, hranges]
  refine ⟨hparam, streamKeyLen_legal hkeylen, rfl, ?_⟩
  simp only [List.forall_mem_cons, Range.inside_iff]
  exact ⟨hkey, hiv, hsrc, hdst, by simp⟩
end

/-- Settles O27: no check fails, and the model's quarter-rounds are the equations of R171 and R177 as they stand. -/
theorem quarterRoundCommandsComplete : Obligations.QuarterRoundCommandsComplete := by
  refine ⟨fun s hlen hsrc hdst => ?_, fun a b c d => ⟨rfl, rfl, rfl, rfl, rfl⟩⟩
  have hlegal := operandsQr_legal hlen hsrc hdst
  exact ⟨exec_completed (i := .chachaQr 0) (by simp) hlegal rfl, exec_completed (i := .salsaQr 0) (by simp) hlegal rfl⟩

/-! ### ChaCha and Salsa: the rounds by word position (R172 to R174, R178 to R180)

The four quarter-rounds of a round take disjoint words, so each of them sees the words as they were before the round. -/

/-- The positions of four words in a state. -/
abbrev QuadPos := Nat × Nat × Nat × Nat

/-- The four positions in order. -/
def QuadPos.toList : QuadPos → List Nat
  | (i, j, k, l) => [i, j, k, l]

/-- The four words at given positions. -/
def quadAt (x : List Word) : QuadPos → Quad
  | (i, j, k, l) => ⟨x.getD i 0, x.getD j 0, x.getD k 0, x.getD l 0⟩

/-- A quarter-round at each of some positions, one after the other. -/
def quartersAt (qr : Quad → Quad) (ps : List QuadPos) (x : List Word) : List Word :=
  ps.foldl (fun x p => quarterAt qr p.1 p.2.1 p.2.2.1 p.2.2.2 x) x

section
variable (qr : Quad → Quad) {x : List Word}

theorem quadAt_quarterAt_self {i j k l : Nat} (hnodup : [i, j, k, l].Nodup) (hlt : ∀ n ∈ [i, j, k, l], n < x.length) :
    quadAt (quarterAt qr i j k l x) (i, j, k, l) = qr (quadAt x (i, j, k, l)) := by
  simp only [List.nodup_cons, List.mem_cons, List.not_mem_nil, not_or, or_false] at hnodup
  simp only [List.forall_mem_cons] at hlt
  obtain ⟨⟨hij, hik, hil⟩, ⟨hjk, hjl⟩, hkl, -⟩ := hnodup
  obtain ⟨hi, hj, hk, hl, -⟩ := hlt
  simp [quadAt, quarterAt, List.getD_eq_getElem?_getD, hi, hj, hk, hl, Ne.symm hij, Ne.symm hik, Ne.symm hil,
    Ne.symm hjk, Ne.symm hjl, Ne.symm hkl]

theorem quarterAt_getD_of_not_mem {i j k l n : Nat} (hn : n ∉ [i, j, k, l]) :
    (quarterAt qr i j k l x).getD n 0 = x.getD n 0 := by
  simp only [List.mem_cons, List.not_mem_nil, not_or, or_false] at hn
  obtain ⟨hi, hj, hk, hl⟩ := hn
  simp [quarterAt, List.getD_eq_getElem?_getD, Ne.symm hi, Ne.symm hj, Ne.symm hk, Ne.symm hl]

theorem quartersAt_getD_of_not_mem {ps : List QuadPos} {n : Nat} (hn : n ∉ ps.flatMap QuadPos.toList) :
    (quartersAt qr ps x).getD n 0 = x.getD n 0 := by
  induction ps generalizing x with
  | nil => rfl
  | cons p ps ih =>
    rw [List.flatMap_cons, List.mem_append, not_or] at hn
    exact (ih hn.2).trans (quarterAt_getD_of_not_mem qr hn.1)

theorem quadAt_congr {x y : List Word} {p : QuadPos} (h : ∀ n ∈ p.toList, x.getD n 0 = y.getD n 0) :
    quadAt x p = quadAt y p := by
  obtain ⟨i, j, k, l⟩ := p
  simp only [QuadPos.toList, List.forall_mem_cons] at h
  obtain ⟨hi, hj, hk, hl, -⟩ := h
  rw [quadAt, quadAt, hi, hj, hk, hl]

/-- Quarter-rounds at disjoint positions do not see one another. -/
theorem quadAt_quartersAt {ps : List QuadPos} (hnodup : (ps.flatMap QuadPos.toList).Nodup)
    (hlt : ∀ n ∈ ps.flatMap QuadPos.toList, n < x.length) {p : QuadPos} (hp : p ∈ ps) :
    quadAt (quartersAt qr ps x) p = qr (quadAt x p) := by
  induction ps generalizing x with
  | nil => simp at hp
  | cons q ps ih =>
    rw [List.flatMap_cons] at hnodup hlt
    obtain ⟨hq, hps, hdisj⟩ := List.nodup_append'.1 hnodup
    obtain ⟨hltq, hltps⟩ := List.forall_mem_append.1 hlt
    rcases List.mem_cons.1 hp with rfl | hp
    · calc quadAt (quartersAt qr ps (quarterAt qr p.1 p.2.1 p.2.2.1 p.2.2.2 x)) p
          = quadAt (quarterAt qr p.1 p.2.1 p.2.2.1 p.2.2.2 x) p :=
            quadAt_congr fun n hn => quartersAt_getD_of_not_mem qr (hdisj hn)
        _ = qr (quadAt x p) := quadAt_quarterAt_self qr hq hltq
    · calc quadAt (quartersAt qr ps (quarterAt qr q.1 q.2.1 q.2.2.1 q.2.2.2 x)) p
          = qr (quadAt (quarterAt qr q.1 q.2.1 q.2.2.1 q.2.2.2 x) p) :=
            ih hps (by simpa using hltps) hp
        _ = qr (quadAt x p) := by
          refine congrArg qr (quadAt_congr fun n hn => quarterAt_getD_of_not_mem qr fun hnq => ?_)
          exact hdisj hnq (List.mem_flatMap.2 ⟨p, hp, hn⟩)

/-- A round of four quarter-rounds, at positions that meet every word at most once. -/
theorem quadAt_quartersAt_range (pos : Nat → QuadPos) (hlen : x.length = 16)
    (hnodup : (((List.range 4).map pos).flatMap QuadPos.toList).Nodup)
    (hlt : ∀ n ∈ ((List.range 4).map pos).flatMap QuadPos.toList, n < 16) {c : Nat} (hc : c < 4) :
    quadAt (quartersAt qr ((List.range 4).map pos) x) (pos c) = qr (quadAt x (pos c)) :=
  quadAt_quartersAt qr hnodup (hlen ▸ hlt) (List.mem_map_of_mem (List.mem_range.2 hc))
end

/-- Where quarter-round `c` of each kind of round works (R172, R178). -/
def chachaColumnPos (c : Nat) : QuadPos := (c % 16, (c + 4) % 16, (c + 8) % 16, (c + 12) % 16)
def chachaDiagonalPos (c : Nat) : QuadPos :=
  (c % 16, (4 + (c + 1) % 4) % 16, (8 + (c + 2) % 4) % 16, (12 + (c + 3) % 4) % 16)
def salsaColumnPos (c : Nat) : QuadPos := (5 * c % 16, (5 * c + 4) % 16, (5 * c + 8) % 16, (5 * c + 12) % 16)
def salsaRowPos (c : Nat) : QuadPos :=
  ((4 * c + c % 4) % 16, (4 * c + (c + 1) % 4) % 16, (4 * c + (c + 2) % 4) % 16, (4 * c + (c + 3) % 4) % 16)

section
variable (x : List Word)

theorem chachaColumnRound_eq : chachaColumnRound x = quartersAt chachaQr ((List.range 4).map chachaColumnPos) x := by
  simp [chachaColumnRound, quartersAt, chachaColumnPos, List.range_succ]

theorem chachaDiagonalRound_eq : chachaDiagonalRound x = quartersAt chachaQr ((List.range 4).map chachaDiagonalPos) x := by
  simp [chachaDiagonalRound, quartersAt, chachaDiagonalPos, List.range_succ]

theorem salsaColumnRound_eq : salsaColumnRound x = quartersAt salsaQr ((List.range 4).map salsaColumnPos) x := by
  simp [salsaColumnRound, quartersAt, salsaColumnPos, List.range_succ]

theorem salsaRowRound_eq : salsaRowRound x = quartersAt salsaQr ((List.range 4).map salsaRowPos) x := by
  simp [salsaRowRound, quartersAt, salsaRowPos, List.range_succ]
end

section
variable {x : List Word} (hx : x.length = 16) {c : Nat} (hc : c < 4)
include hx hc

theorem quadAt_chachaColumnRound :
    quadAt (chachaColumnRound x) (chachaColumnPos c) = chachaQr (quadAt x (chachaColumnPos c)) := by
  rw [chachaColumnRound_eq]
  exact quadAt_quartersAt_range chachaQr chachaColumnPos hx (by decide) (by decide) hc

theorem quadAt_chachaDiagonalRound :
    quadAt (chachaDiagonalRound x) (chachaDiagonalPos c) = chachaQr (quadAt x (chachaDiagonalPos c)) := by
  rw [chachaDiagonalRound_eq]
  exact quadAt_quartersAt_range chachaQr chachaDiagonalPos hx (by decide) (by decide) hc

theorem quadAt_salsaColumnRound :
    quadAt (salsaColumnRound x) (salsaColumnPos c) = salsaQr (quadAt x (salsaColumnPos c)) := by
  rw [salsaColumnRound_eq]
  exact quadAt_quartersAt_range salsaQr salsaColumnPos hx (by decide) (by decide) hc

theorem quadAt_salsaRowRound :
    quadAt (salsaRowRound x) (salsaRowPos c) = salsaQr (quadAt x (salsaRowPos c)) := by
  rw [salsaRowRound_eq]
  exact quadAt_quartersAt_range salsaQr salsaRowPos hx (by decide) (by decide) hc
end

section
variable (f g : List Word → List Word) (x : List Word)

theorem alternate_succ (r : Nat) :
    alternate f g (r + 1) x = if r % 2 = 0 then f (alternate f g r x) else g (alternate f g r x) := by
  rw [alternate, List.range_succ, List.foldl_append]
  rfl

theorem alternate_two_mul (n : Nat) :
    alternate f g (2 * n) x = (List.range n).foldl (fun y _ => g (f y)) x := by
  induction n with
  | zero => rfl
  | succ n ih =>
    rw [show 2 * (n + 1) = 2 * n + 1 + 1 by omega, alternate_succ, alternate_succ, if_neg (by omega), if_pos (by omega), ih,
      List.range_succ, List.foldl_append]
    rfl
end

theorem zipWith_add_getD {a b : List Word} {i : Nat} (ha : i < a.length) (hb : i < b.length) :
    (List.zipWith (· + ·) a b).getD i 0 = a.getD i 0 + b.getD i 0 := by
  simp [List.getD_eq_getElem?_getD, ha, hb]

/-- Word `i` of a core of `2 n` rounds: `n` pairs of rounds, then the feed-forward. -/
theorem core_getD {f g : List Word → List Word} (hf : ∀ x, (f x).length = x.length) (hg : ∀ x, (g x).length = x.length)
    {x : List Word} (n : Nat) {i : Nat} (hi : i < x.length) :
    (List.zipWith (· + ·) (alternate f g (2 * n) x) x).getD i 0 =
      ((List.range n).foldl (fun y _ => g (f y)) x).getD i 0 + x.getD i 0 := by
  rw [zipWith_add_getD (by rwa [alternate_length hf hg]) hi, alternate_two_mul]

/-- Settles O28: no check fails; each round by the positions of its quarter-rounds, and the rounds in pairs. -/
theorem coreCommandsComplete : Obligations.CoreCommandsComplete := by
  refine ⟨fun s p R hvariant hlen hsrc hdst => ?_, fun x hx => ⟨fun c hc => ?_, fun n i hi => ?_⟩⟩
  · obtain ⟨hparam, rfl⟩ := roundCount_of_variant hvariant
    have hlegal := operandsCore_legal hparam hlen hsrc hdst
    exact ⟨exec_completed (i := .chachaCore p) (by simp) hlegal rfl, exec_completed (i := .salsaCore p) (by simp) hlegal rfl⟩
  · exact ⟨quadAt_chachaColumnRound hx hc, quadAt_chachaDiagonalRound hx hc, quadAt_salsaColumnRound hx hc,
      quadAt_salsaRowRound hx hc⟩
  · exact ⟨core_getD (by simp [chachaColumnRound]) (by simp [chachaDiagonalRound]) n (hx ▸ hi),
      core_getD (by simp [salsaColumnRound]) (by simp [salsaRowRound]) n (hx ▸ hi)⟩

/-! ### ChaCha and Salsa: the seeded states (R175, R181) -/

theorem wordsLE_getD (n : Nat) (b : List Byte) {i : Nat} (h : i < n) : (wordsLE n b).getD i 0 = le32 (slice b (4 * i) 4) := by
  simp [wordsLE, List.getD_eq_getElem?_getD, h]

/-- Key word `i`: a key of 32 bytes has all eight, a shorter one is used twice. -/
theorem streamKeyWords_getD (key : List Byte) {i : Nat} (h : i < 8) :
    (streamKeyWords key).getD i 0 = le32 (slice key (4 * (if key.length = 32 then i else i % 4)) 4) := by
  rw [streamKeyWords]
  split
  · exact wordsLE_getD 8 key h
  · by_cases hfirst : i < 4
    · rw [List.getD_append _ _ _ _ (by rwa [wordsLE_length]), wordsLE_getD 4 key hfirst, Nat.mod_eq_of_lt hfirst]
    · rw [List.getD_append_right _ _ _ _ (by rw [wordsLE_length]; omega), wordsLE_length, wordsLE_getD 4 key (by omega),
        show i % 4 = i - 4 by omega]

section
variable (key nonce : List Byte) (ctr : DWord) {i : Nat}

/-- The words that both seeded states take from the constants and the key, four of each at a time. -/
theorem seeds_getD (h : i < 4) :
    (chachaSeed key nonce ctr).getD i 0 = (streamConstants key.length).getD i 0 ∧
    (salsaSeed key nonce ctr).getD (5 * i) 0 = (streamConstants key.length).getD i 0 ∧
    (chachaSeed key nonce ctr).getD (4 + i) 0 = (streamKeyWords key).getD i 0 ∧
    (chachaSeed key nonce ctr).getD (8 + i) 0 = (streamKeyWords key).getD (4 + i) 0 ∧
    (salsaSeed key nonce ctr).getD (1 + i) 0 = (streamKeyWords key).getD i 0 ∧
    (salsaSeed key nonce ctr).getD (11 + i) 0 = (streamKeyWords key).getD (4 + i) 0 := by
  interval_cases i <;> exact ⟨rfl, rfl, rfl, rfl, rfl, rfl⟩

theorem seeds_getD_nonce (h : i < 2) :
    (chachaSeed key nonce ctr).getD (14 + i) 0 = (wordsLE 2 nonce).getD i 0 ∧
    (salsaSeed key nonce ctr).getD (6 + i) 0 = (wordsLE 2 nonce).getD i 0 := by
  interval_cases i <;> exact ⟨rfl, rfl⟩
end

/-- Settles O29: no check fails; the seeded states by position, the key words of either key length by number. -/
theorem blockCommandsComplete : Obligations.BlockCommandsComplete := by
  refine ⟨fun s p R hvariant hkeylen hkey hiv hdst => ?_, fun R key nonce ctr _ _ =>
    ⟨rfl, rfl, rfl, rfl, fun i hi => ?_, rfl, rfl, rfl, rfl, fun i hi => ?_⟩⟩
  · obtain ⟨hparam, rfl⟩ := roundCount_of_variant hvariant
    have hlegal := operandsBlock_legal hparam hkeylen hkey hiv hdst
    rw [← s.ctr_eq_ofNat]
    exact ⟨exec_completed (i := .chacha20Block p) (by simp) hlegal rfl,
      exec_completed (i := .salsa20Block p) (by simp) hlegal rfl⟩
  · have hseeds := seeds_getD key nonce ctr hi
    rw [streamKeyWords_getD key (by omega : i < 8), streamKeyWords_getD key (by omega : 4 + i < 8)] at hseeds
    exact hseeds
  · have hseeds := seeds_getD_nonce key nonce ctr hi
    rw [wordsLE_getD 2 nonce hi] at hseeds
    exact hseeds

/-- Settles O30: no check fails, and the keystream of R183 is XORed byte by byte. -/
theorem streamXorCommandsComplete : Obligations.StreamXorCommandsComplete := by
  refine ⟨fun s p R hvariant hkeylen hkey hiv hsrc hdst => ?_, fun block ctr m hb =>
    ⟨streamXor_length hb ctr m, fun i hi => streamXor_getD ctr hb hi⟩⟩
  obtain ⟨hparam, rfl⟩ := roundCount_of_variant hvariant
  have hlegal := operandsStreamXor_legal hparam hkeylen hkey hiv hsrc hdst
  rw [← s.ctr_eq_ofNat]
  exact ⟨exec_completed (i := .chacha20Xor p) (by simp) hlegal rfl,
    exec_completed (i := .salsa20Xor p) (by simp) hlegal rfl⟩

/-! ### The four stream commands, issued twice in place (R190, R194, R203, R216)

The second command finds the same key, nonce or IV and counter, and the first one's output as its input. -/

theorem rc4XorFrom_rc4XorFrom (t : Rc4State) (m : List Byte) : rc4XorFrom t (rc4XorFrom t m) = m := by
  induction m generalizing t with
  | nil => rfl
  | cons b m ih => rw [rc4XorFrom, rc4XorFrom, ih, BitVec.xor_assoc, BitVec.xor_self, BitVec.xor_zero]

theorem triviumXorFrom_triviumXorFrom (t : Trivium) (m : List Byte) : triviumXorFrom t (triviumXorFrom t m) = m := by
  induction m generalizing t with
  | nil => rfl
  | cons b m ih => rw [triviumXorFrom, triviumXorFrom, ih, BitVec.xor_assoc, BitVec.xor_self, BitVec.xor_zero]

/-- The commands that XOR a keystream onto their input. -/
def isStreamCommand : Instr → Bool
  | .chacha20Xor _ | .salsa20Xor _ | .rc4Xor _ | .triviumXor _ => true
  | _ => false

/-- A stream command given its own output computes its input. -/
theorem outputOf_outputOf {i : Instr} (hi : isStreamCommand i = true) (ctr : DWord) (x : Inputs) :
    outputOf ctr { x with src := outputOf ctr x i } i = x.src := by
  cases i <;> cases hi
  case chacha20Xor p => exact streamXor_streamXor ctr (chachaBlock_length _ _ _) _
  case salsa20Xor p => exact streamXor_streamXor ctr (salsaBlock_length _ _ _) _
  case rc4Xor p => exact rc4XorFrom_rc4XorFrom _ _
  case triviumXor p => exact triviumXorFrom_triviumXorFrom _ _

theorem SameRegisters.ctr_eq {s t : State} (h : SameRegisters s t) : t.ctr = s.ctr := by
  obtain ⟨-, -, -, -, -, -, hctrlo, hctrhi⟩ := h
  rw [State.ctr, State.ctr, hctrlo, hctrhi]

/-- The bytes of a range that has none in common with the output range stay. -/
theorem Completed.readRange_of_apart {s t : State} {p : Word} {n : Nat} {out : List Byte} (h : Completed s t p n out)
    {o : Option Range} (ho : ∀ r ∈ o, r.base + r.len ≤ p.toNat ∨ p.toNat + n ≤ r.base) :
    t.mem.readRange o = s.mem.readRange o := by
  cases o with
  | none => rfl
  | some r =>
    have hr := ho r rfl
    refine List.map_congr_left fun k hk => h.frame _ ?_
    have hlt : k < r.len := List.mem_range.1 hk
    omega

theorem rangeAt_apart {q p : Word} {m n : Nat} (h : Apart q m p n) :
    ∀ r ∈ rangeAt q m, r.base + r.len ≤ p.toNat ∨ p.toNat + n ≤ r.base := by
  rintro _ ⟨⟩
  exact h

/-- A stream command whose input range is its output range, and whose other inputs lie apart from it, undoes itself. -/
theorem exec_exec_restores {i : Instr} (s : State) {p : Word} {n : Nat} (hi : isStreamCommand i = true)
    (hlegal : (operandsOf s i).firstError s.memSize = none)
    (hsrc : (operandsOf s i).src = rangeAt p n) (hdst : (operandsOf s i).dst = rangeAt p n)
    (hkey : ∀ r ∈ (operandsOf s i).key, r.base + r.len ≤ p.toNat ∨ p.toNat + n ≤ r.base)
    (hiv : ∀ r ∈ (operandsOf s i).iv, r.base + r.len ≤ p.toNat ∨ p.toNat + n ≤ r.base) :
    ∃ t u, exec i s = .next t ∧ exec i t = .next u ∧ ∀ a, u.mem.read a = s.mem.read a := by
  have hne : ∀ q, i ≠ .clrstat q := by
    rintro q rfl
    cases hi
  obtain ⟨t, ht, hfirst⟩ := exec_completed hne hlegal hdst
  have hops := hfirst.registers.operandsOf_eq i
  obtain ⟨u, hu, hsecond⟩ := exec_completed hne ((hfirst.firstError_eq i).trans hlegal) (hops ▸ hdst)
  have hinputs : (operandsOf t i).inputs t.mem = { (operandsOf s i).inputs s.mem with src := outputIn s i } := by
    rw [hops, Operands.inputs, hfirst.readRange_of_apart hkey, hfirst.readRange_of_apart hiv, hsrc]
    exact congrArg (Inputs.mk _ _) hfirst.bytesAt_output
  have hback : outputIn t i = s.bytesAt p n := by
    rw [outputIn, hinputs, hfirst.registers.ctr_eq, outputIn, outputOf_outputOf hi, Operands.inputs, hsrc]
    rfl
  rw [hback] at hsecond
  exact ⟨t, u, ht, hu, hfirst.read_restored hsecond⟩

section
variable {s : State} (hkey : s.inMem s.keyp s.keylen.toNat) (hsrc : s.inMem s.src s.len.toNat)
  (hdst : s.inMem s.dst s.len.toNat)
include hkey hsrc hdst

/-- No check of `RC4.XOR` fails. -/
theorem operandsRc4Xor_legal (hlow : 1 ≤ s.keylen.toNat) (hhigh : s.keylen.toNat ≤ 256) :
    (operandsRc4Xor 0 s).firstError s.memSize = none := by
  have hranges : (operandsRc4Xor 0 s).ranges =
      [⟨s.keyp.toNat, s.keylen.toNat⟩, ⟨s.src.toNat, s.len.toNat⟩, ⟨s.dst.toNat, s.len.toNat⟩] := rfl
  rw [Operands.firstError_eq_none_iff, hranges]
  refine ⟨rfl, by simp [operandsRc4Xor, rc4KeyLen, hlow, hhigh], rfl, ?_⟩
  simp only [List.forall_mem_cons, Range.inside_iff]
  exact ⟨hkey, hsrc, hdst, by simp⟩

/-- No check of `TRIVIUM.XOR` fails. -/
theorem operandsTriviumXor_legal (hkeylen : s.keylen = 10) (hiv : s.inMem s.ivp 10) :
    (operandsTriviumXor 0 s).firstError s.memSize = none := by
  have hranges : (operandsTriviumXor 0 s).ranges =
      [⟨s.keyp.toNat, 10⟩, ⟨s.ivp.toNat, 10⟩, ⟨s.src.toNat, s.len.toNat⟩, ⟨s.dst.toNat, s.len.toNat⟩] := rfl
  rw [hkeylen] at hkey
  rw [Operands.firstError_eq_none_iff, hranges]
  refine ⟨rfl, by simp [operandsTriviumXor, hkeylen], rfl, ?_⟩
  simp only [List.forall_mem_cons, Range.inside_iff]
  exact ⟨hkey, hiv, hsrc, hdst, by simp⟩
end

/-- Settles O51: each command undoes itself, the bytes it reads beside its input lying apart from its output. -/
theorem streamCommandTwiceRestoresMemory : Obligations.StreamCommandTwiceRestoresMemory := by
  intro s hinPlace hsrc hkey hkeyApart i hi
  have hdst : s.inMem s.dst s.len.toNat := hinPlace ▸ hsrc
  have hout : rangeAt s.dst s.len.toNat = rangeAt s.src s.len.toNat := by rw [hinPlace]
  rcases hi with ⟨hi, hkeylen, hiv, hivApart⟩ | ⟨rfl, hlow, hhigh⟩ | ⟨rfl, hkeylen, hiv, hivApart⟩
  · obtain ⟨p, hparam, hi⟩ : ∃ p, paramRounds p = true ∧ (i = .chacha20Xor p ∨ i = .salsa20Xor p) := by
      fin_cases hi <;> simp [paramRounds]
    have hlegal := operandsStreamXor_legal hparam hkeylen hkey hiv hsrc hdst
    rcases hi with rfl | rfl
    · exact exec_exec_restores (i := .chacha20Xor p) s rfl hlegal rfl hout (rangeAt_apart hkeyApart) (rangeAt_apart hivApart)
    · exact exec_exec_restores (i := .salsa20Xor p) s rfl hlegal rfl hout (rangeAt_apart hkeyApart) (rangeAt_apart hivApart)
  · have hlegal := operandsRc4Xor_legal hkey hsrc hdst hlow hhigh
    exact exec_exec_restores (i := .rc4Xor 0) s rfl hlegal rfl hout (rangeAt_apart hkeyApart) nofun
  · have hlegal := operandsTriviumXor_legal hkey hsrc hdst hkeylen hiv
    have hkeyApart : Apart s.keyp 10 s.src s.len.toNat := by simpa [hkeylen] using hkeyApart
    exact exec_exec_restores (i := .triviumXor 0) s rfl hlegal rfl hout (rangeAt_apart hkeyApart) (rangeAt_apart hivApart)

end Sys2Proof.Machine

namespace Sys2Proof.Machine

/-! ### RC4: the swap, and `S` as a permutation (R200, R201) -/

theorem rc4Swap_eq_swap {S : List Byte} (hS : S.length = 256) (i j : Byte) :
    rc4Swap S i j = S.swap i.toNat j.toNat := by
  have hi : i.toNat < S.length := hS ▸ i.isLt
  have hj : j.toNat < S.length := hS ▸ j.isLt
  rw [List.swap_eq_of_lt hi hj, rc4Swap, rc4At, rc4At, List.getD_eq_getElem _ _ hi, List.getD_eq_getElem _ _ hj]

theorem rc4Swap_perm {S : List Byte} (hS : S.length = 256) (i j : Byte) : (rc4Swap S i j).Perm S :=
  rc4Swap_eq_swap hS i j ▸ List.swap_perm S _ _

/-- Entry `x` after a swap; `i = j` is allowed. -/
theorem rc4Swap_getD {S : List Byte} (hS : S.length = 256) (i j : Byte) {x : Nat} (hx : x < 256) :
    (rc4Swap S i j).getD x 0 =
      if x = j.toNat then S.getD i.toNat 0 else if x = i.toNat then S.getD j.toNat 0 else S.getD x 0 := by
  have hlen : x < ((S.set i.toNat (rc4At S j)).set j.toNat (rc4At S i)).length := by
    rwa [List.length_set, List.length_set, hS]
  have hxS : x < S.length := hS.symm ▸ hx
  rw [rc4Swap, List.getD_eq_getElem _ _ hlen, List.getElem_set, List.getElem_set, List.getD_eq_getElem S 0 hxS]
  simp only [rc4At, eq_comm]

section
variable {S₀ : List Byte} (hlen : S₀.length = 256)
include hlen

theorem rc4KsaStep_perm (key : List Byte) {Sj : List Byte × Byte} (h : Sj.1.Perm S₀) (i : Nat) :
    (rc4KsaStep key Sj i).1.Perm S₀ :=
  (rc4Swap_perm (h.length_eq.trans hlen) _ _).trans h

theorem foldl_rc4KsaStep_perm (key : List Byte) {Sj : List Byte × Byte} (h : Sj.1.Perm S₀) (turns : List Nat) :
    (turns.foldl (rc4KsaStep key) Sj).1.Perm S₀ :=
  List.foldlRecOn (motive := fun Tj : List Byte × Byte => Tj.1.Perm S₀) turns _ h
    fun _ hT i _ => rc4KsaStep_perm hlen key hT i

theorem rc4Step_perm {t : Rc4State} (h : t.S.Perm S₀) : (rc4Step t).S.Perm S₀ :=
  (rc4Swap_perm (h.length_eq.trans hlen) _ _).trans h
end

/-- Settles O52: the identity is a permutation, and every turn and every step only swaps two entries. -/
theorem rc4StateIsAPermutation : Obligations.Rc4StateIsAPermutation := by
  have hlen : ((List.range 256).map (BitVec.ofNat 8)).length = 256 := by rw [List.length_map, List.length_range]
  exact ⟨fun key => foldl_rc4KsaStep_perm hlen key (List.Perm.refl _) _, fun _ h => rc4Step_perm hlen h⟩

/-! ### The keystreams of RC4 and Trivium (R203, R216) -/

theorem rc4XorFrom_take (t : Rc4State) (m : List Byte) (n : Nat) :
    (rc4XorFrom t m).take n = rc4XorFrom t (m.take n) := by
  induction m generalizing t n with
  | nil => simp [rc4XorFrom]
  | cons b m ih =>
    cases n with
    | zero => rfl
    | succ n => simp only [rc4XorFrom, List.take_succ_cons, ih]

theorem triviumXorFrom_take (t : Trivium) (m : List Byte) (n : Nat) :
    (triviumXorFrom t m).take n = triviumXorFrom t (m.take n) := by
  induction m generalizing t n with
  | nil => simp [triviumXorFrom]
  | cons b m ih =>
    cases n with
    | zero => rfl
    | succ n => simp only [triviumXorFrom, List.take_succ_cons, ih]

/-- Settles O53: from equal states the generators emit equal bytes, one for each byte of input. -/
theorem rc4AndTriviumKeystreams : Obligations.Rc4AndTriviumKeystreams := fun m key iv n =>
  ⟨rc4XorFrom_rc4XorFrom _ m, rc4Xor_length m key, rc4XorFrom_take _ m n,
    triviumXorFrom_triviumXorFrom _ m, triviumXor_length m key iv, triviumXorFrom_take _ m n⟩

/-- R203: the state is stepped before it emits, so the first byte comes from the first step. -/
theorem rc4XorFrom_getD (t : Rc4State) {m : List Byte} {n : Nat} (hn : n < m.length) :
    (rc4XorFrom t m).getD n 0 = m.getD n 0 ^^^ rc4Out (rc4Step^[n + 1] t) := by
  induction m generalizing t n with
  | nil => cases hn
  | cons b m ih =>
    cases n with
    | zero => rfl
    | succ n =>
      rw [rc4XorFrom, List.getD_cons_succ, List.getD_cons_succ, ih _ (Nat.lt_of_succ_lt_succ hn),
        ← Function.iterate_succ_apply]

/-! ### RC4: the two commands (R204, R205) -/

/-- No check of `RC4.KSA` fails. -/
theorem operandsRc4Ksa_legal {s : State} (hkey : s.inMem s.keyp s.keylen.toNat) (hdst : s.inMem s.dst 256)
    (hlow : 1 ≤ s.keylen.toNat) (hhigh : s.keylen.toNat ≤ 256) : (operandsRc4Ksa 0 s).firstError s.memSize = none := by
  have hranges : (operandsRc4Ksa 0 s).ranges = [⟨s.keyp.toNat, s.keylen.toNat⟩, ⟨s.dst.toNat, 256⟩] := rfl
  rw [Operands.firstError_eq_none_iff, hranges]
  refine ⟨rfl, by simp [operandsRc4Ksa, rc4KeyLen, hlow, hhigh], rfl, ?_⟩
  simp only [List.forall_mem_cons, Range.inside_iff]
  exact ⟨hkey, hdst, by simp⟩

/-- Settles O31: no check fails; a turn of the key schedule is one swap, at `i` and the new `j`. -/
theorem rc4KsaCompletes : Obligations.Rc4KsaCompletes := by
  refine ⟨fun s hlow hhigh hkey hdst => ?_, fun key S j hS => ⟨rfl, fun i hi => ?_⟩⟩
  · exact exec_completed (i := .rc4Ksa 0) (by simp) (operandsRc4Ksa_legal hkey hdst hlow hhigh) rfl
  · have hindex : (BitVec.ofNat 8 i).toNat = i := Nat.mod_eq_of_lt hi
    simp only [rc4KsaStep, rc4At, hindex, true_and]
    intro x hx
    rw [rc4Swap_getD hS _ _ hx, hindex]

/-- Settles O32: no check fails; a step of the generator is one swap, at the new `i` and `j`. -/
theorem rc4XorCompletes : Obligations.Rc4XorCompletes := by
  refine ⟨fun s hlow hhigh hkey hsrc hdst => ?_, fun t ht => ?_, fun m key n hn => ?_⟩
  · exact exec_completed (i := .rc4Xor 0) (by simp) (operandsRc4Xor_legal hkey hsrc hdst hlow hhigh) rfl
  · exact ⟨rfl, rfl, fun x hx => rc4Swap_getD ht _ _ hx, rfl⟩
  · rw [List.foldl_const, List.length_range]
    exact rc4XorFrom_getD _ hn

end Sys2Proof.Machine

namespace Sys2Proof.Machine

/-! ### Trivium: the three registers bit by bit (R210 to R212, R215) -/

theorem triviumBit_a (t : Trivium) {k : Nat} (h : k ≤ 93) : triviumBit t k = t.a.getLsbD (k - 1) := if_pos h

theorem triviumBit_b (t : Trivium) {k : Nat} (hlow : 94 ≤ k) (hhigh : k ≤ 177) :
    triviumBit t k = t.b.getLsbD (k - 94) := by
  rw [triviumBit, if_neg (by omega), if_pos hhigh]

theorem triviumBit_c (t : Trivium) {k : Nat} (h : 178 ≤ k) : triviumBit t k = t.c.getLsbD (k - 178) := by
  rw [triviumBit, if_neg (by omega), if_neg (by omega)]

theorem shiftIn_getLsbD_zero {w : Nat} (r : BitVec w) (f : Bool) (hw : 0 < w) : (shiftIn r f).getLsbD 0 = f := by
  simp [shiftIn, hw]

theorem shiftIn_getLsbD_of_pos {w : Nat} (r : BitVec w) (f : Bool) {i : Nat} (hpos : 0 < i) (hi : i < w) :
    (shiftIn r f).getLsbD i = r.getLsbD (i - 1) := by
  rw [shiftIn, BitVec.getLsbD_or, BitVec.getLsbD_shiftLeft, BitVec.getLsbD_setWidth, BitVec.getLsbD_ofBool]
  simp [hi, hpos.ne']

/-- Bit `k` of a little-endian value is bit `k % 8` of byte `k / 8` (R215); past the bytes it is 0. -/
theorem getLsbD_ofNat_leNat {w : Nat} (b : List Byte) {k : Nat} (h : k < w) :
    (BitVec.ofNat w (leNat b)).getLsbD k = (b.getD (k / 8) 0).getLsbD (k % 8) := by
  rw [BitVec.getLsbD_ofNat, decide_eq_true h, Bool.true_and, ← testBit_leNat b _ (Nat.mod_lt k (by decide)),
    Nat.div_add_mod]

theorem getLsbD_getD_div_of_ge (b : List Byte) {k : Nat} (h : 8 * b.length ≤ k) (j : Nat) :
    (b.getD (k / 8) 0).getLsbD j = false := by
  rw [List.getD_eq_default _ _ (by omega)]
  exact BitVec.getLsbD_zero

theorem triviumLoad_c_getLsbD (key iv : List Byte) {i : Nat} (h : i < 111) :
    (triviumLoad key iv).c.getLsbD i = decide (108 ≤ i) := by
  have hbits : ∀ i < 111, (0b111#111 <<< 108).getLsbD i = decide (108 ≤ i) := by decide
  exact hbits i h

/-- R211: key and IV are shorter than the registers they are loaded into, and the bits after them are 0. -/
theorem triviumBit_triviumLoad {key iv : List Byte} (hkey : key.length = 10) (hiv : iv.length = 10) {k : Nat}
    (hlow : 1 ≤ k) (hhigh : k ≤ 288) :
    triviumBit (triviumLoad key iv) k =
      if k ≤ 80 then (key.getD ((k - 1) / 8) 0).getLsbD ((k - 1) % 8)
      else if 94 ≤ k ∧ k ≤ 173 then (iv.getD ((k - 94) / 8) 0).getLsbD ((k - 94) % 8)
      else decide (286 ≤ k) := by
  rcases (by omega : k ≤ 93 ∨ 94 ≤ k ∧ k ≤ 177 ∨ 178 ≤ k) with ha | ⟨hb, hb'⟩ | hc
  · rw [triviumBit_a _ ha, triviumLoad, List.take_of_length_le hkey.le, getLsbD_ofNat_leNat key (by omega)]
    split
    · rfl
    · rw [if_neg (by omega), decide_eq_false (by omega), getLsbD_getD_div_of_ge key (by omega)]
  · rw [triviumBit_b _ hb hb', triviumLoad, List.take_of_length_le hiv.le, getLsbD_ofNat_leNat iv (by omega),
      if_neg (by omega)]
    split
    · rfl
    · rw [decide_eq_false (by omega), getLsbD_getD_div_of_ge iv (by omega)]
  · rw [triviumBit_c _ hc, triviumLoad_c_getLsbD _ _ (by omega), if_neg (by omega), if_neg (by omega)]
    exact decide_eq_decide.2 (by omega)

/-- R212 away from the first bit of each register. -/
theorem triviumBit_triviumClock_of_shifted (t : Trivium) {k : Nat} (hlow : 2 ≤ k) (hhigh : k ≤ 288) (hb : k ≠ 94)
    (hc : k ≠ 178) : triviumBit (triviumClock t) k = triviumBit t (k - 1) := by
  rcases (by omega : k ≤ 93 ∨ 95 ≤ k ∧ k ≤ 177 ∨ 179 ≤ k) with ha | ⟨hb, hb'⟩ | hc
  · rw [triviumBit_a _ ha, triviumBit_a _ (by omega)]
    exact shiftIn_getLsbD_of_pos _ _ (by omega) (by omega)
  · rw [triviumBit_b _ (by omega) hb', triviumBit_b _ (by omega) (by omega), Nat.sub_right_comm]
    exact shiftIn_getLsbD_of_pos _ _ (by omega) (by omega)
  · rw [triviumBit_c _ (by omega), triviumBit_c _ (by omega), Nat.sub_right_comm]
    exact shiftIn_getLsbD_of_pos _ _ (by omega) (by omega)

/-- Settles O54: each bit by the register it stands in; a feedback bit enters at the first position of its register. -/
theorem triviumLoadAndClockByBit : Obligations.TriviumLoadAndClockByBit :=
  ⟨fun _ _ hkey hiv _ hlow hhigh => triviumBit_triviumLoad hkey hiv hlow hhigh, fun t =>
    ⟨shiftIn_getLsbD_zero t.a _ (by decide), shiftIn_getLsbD_zero t.b _ (by decide),
      shiftIn_getLsbD_zero t.c _ (by decide),
      fun _ hlow hhigh hb hc => triviumBit_triviumClock_of_shifted t hlow hhigh hb hc⟩⟩

/-! ### Trivium: the keystream and the command (R213, R214, R216, R217) -/

theorem triviumClocks_eq_iterate (n : Nat) (t : Trivium) : triviumClocks n t = triviumClock^[n] t := by
  induction n generalizing t with
  | zero => rfl
  | succ n ih => exact ih _

/-- R214: the first output bit is bit 0 of the byte. -/
theorem triviumByte_getLsbD (t : Trivium) {k : Nat} (hk : k < 8) :
    (triviumByte t).getLsbD k = triviumOut (triviumClock^[k] t) := by
  rw [triviumByte, getLsbD_ofBits _ _ hk, triviumClocks_eq_iterate]

theorem triviumXorFrom_getD_getLsbD (t : Trivium) {m : List Byte} {n k : Nat} (hn : n < m.length) (hk : k < 8) :
    ((triviumXorFrom t m).getD n 0).getLsbD k =
      ((m.getD n 0).getLsbD k ^^ triviumOut (triviumClock^[8 * n + k] t)) := by
  induction m generalizing t n with
  | nil => cases hn
  | cons b m ih =>
    rw [triviumXorFrom]
    cases n with
    | zero =>
      rw [List.getD_cons_zero, List.getD_cons_zero, BitVec.getLsbD_xor, triviumByte_getLsbD t hk, Nat.mul_zero,
        Nat.zero_add]
    | succ n =>
      have hclocks : 8 * (n + 1) + k = 8 * n + k + 8 := by omega
      rw [List.getD_cons_succ, List.getD_cons_succ, ih _ (Nat.lt_of_succ_lt_succ hn), triviumClocks_eq_iterate,
        ← Function.iterate_add_apply, hclocks]

/-- Settles O33: no check fails, the XORs of the output bit are regrouped, and a byte's output bits follow the 1152 clocks of the
warm-up and eight for each byte before it. -/
theorem triviumXorCompletes : Obligations.TriviumXorCompletes := by
  refine ⟨fun s hkeylen hkey hiv hsrc hdst => ?_, fun t => ?_, fun m key iv n k hn hk => ?_⟩
  · have hkey : s.inMem s.keyp s.keylen.toNat := hkeylen ▸ hkey
    exact exec_completed (i := .triviumXor 0) (by simp) (operandsTriviumXor_legal hkey hsrc hdst hkeylen hiv) rfl
  · simp only [triviumOut, Bool.xor_assoc]
  · have hclocks : 1152 + 8 * n + k = 8 * n + k + 1152 := by omega
    rw [triviumXor, triviumXorFrom_getD_getLsbD _ hn hk, triviumInit, triviumClocks_eq_iterate,
      ← Function.iterate_add_apply, List.foldl_const, List.length_range, hclocks]

end Sys2Proof.Machine

namespace Sys2Proof.Machine

/-! ### Hashes: the commands (R250 to R255) -/

section
variable {s : State} {n : Nat}

/-- No check of a `*.COMPRESS` command fails. -/
theorem operandsCompress_legal (hlen : s.len = 64) (hiv : s.inMem s.ivp n) (hsrc : s.inMem s.src 64)
    (hdst : s.inMem s.dst n) : (operandsCompress n 0 s).firstError s.memSize = none := by
  have hranges : (operandsCompress n 0 s).ranges = [⟨s.ivp.toNat, n⟩, ⟨s.src.toNat, 64⟩, ⟨s.dst.toNat, n⟩] := rfl
  rw [Operands.firstError_eq_none_iff, hranges]
  refine ⟨rfl, rfl, by simp [operandsCompress, hlen], ?_⟩
  simp only [List.forall_mem_cons, Range.inside_iff]
  exact ⟨hiv, hsrc, hdst, by simp⟩

/-- No check of a `*.HASH` command fails. -/
theorem operandsHash_legal (hsrc : s.inMem s.src s.len.toNat) (hdst : s.inMem s.dst n) :
    (operandsHash n 0 s).firstError s.memSize = none := by
  have hranges : (operandsHash n 0 s).ranges = [⟨s.src.toNat, s.len.toNat⟩, ⟨s.dst.toNat, n⟩] := rfl
  rw [Operands.firstError_eq_none_iff, hranges]
  refine ⟨rfl, rfl, rfl, ?_⟩
  simp only [List.forall_mem_cons, Range.inside_iff]
  exact ⟨hsrc, hdst, by simp⟩
end

/-- Settles O34: no check fails, and the chaining value and the block read are those at `IVP` and `SRC`. -/
theorem compressCommandsComplete : Obligations.CompressCommandsComplete := fun _ hlen hsrc =>
  ⟨fun hiv hdst => exec_completed (i := .md5Compress 0) (by simp) (operandsCompress_legal hlen hiv hsrc hdst) rfl,
    fun hiv hdst => exec_completed (i := .sha1Compress 0) (by simp) (operandsCompress_legal hlen hiv hsrc hdst) rfl,
    fun hiv hdst => exec_completed (i := .sha256Compress 0) (by simp) (operandsCompress_legal hlen hiv hsrc hdst) rfl⟩

/-- Settles O35: no check fails, and the message read is that at `SRC`. -/
theorem hashCommandsComplete : Obligations.HashCommandsComplete := fun _ hsrc =>
  ⟨fun hdst => exec_completed (i := .md5Hash 0) (by simp) (operandsHash_legal hsrc hdst) rfl,
    fun hdst => exec_completed (i := .sha1Hash 0) (by simp) (operandsHash_legal hsrc hdst) rfl,
    fun hdst => exec_completed (i := .sha256Hash 0) (by simp) (operandsHash_legal hsrc hdst) rfl⟩

/-! ### Hashes: padding (R220) -/

/-- One byte 0x80, the zeros and 8 bytes of length fill the last block. -/
theorem add_padZeros (n : Nat) : n + 1 + padZeros n + 8 = 64 * ((n + 8) / 64 + 1) := by
  unfold padZeros
  omega

section
variable {lenField : DWord → List Byte} (hfield : ∀ v, (lenField v).length = 8) (m : List Byte)
include hfield

theorem hashPad_length : (hashPad lenField m).length = 64 * ((m.length + 8) / 64 + 1) := by
  rw [← add_padZeros, hashPad]
  simp only [List.length_append, List.length_replicate, List.length_singleton, hfield]

theorem drop_hashPad :
    (hashPad lenField m).drop ((hashPad lenField m).length - 8) = lenField (BitVec.ofNat 64 (8 * m.length)) := by
  rw [hashPad, List.length_append, hfield, Nat.add_sub_cancel, List.drop_left]

theorem hashPad_getD_zero {i : Nat} (d : Byte) (hlow : m.length < i) (hhigh : i + 8 < (hashPad lenField m).length) :
    (hashPad lenField m).getD i d = 0 := by
  rw [hashPad_length hfield, ← add_padZeros] at hhigh
  have hzero : i - (m ++ [0x80#8]).length < padZeros m.length := by
    simp only [List.length_append, List.length_singleton]
    omega
  rw [hashPad, List.getD_append _ _ _ _ (by simp; omega), List.getD_append_right _ _ _ _ (by simpa using hlow)]
  exact List.getD_replicate _ hzero
end

/-- Settles O55: the four pieces of the padding by their lengths; both length fields have 8 bytes. -/
theorem hashPaddingShape : Obligations.HashPaddingShape := by
  intro m lenField horder hn
  have hfield (v : DWord) : (lenField v).length = 8 := by
    rcases horder with rfl | rfl
    · exact toBE64_length v
    · exact toLE64_length v
  refine ⟨hashPad_length hfield m, ?_, ?_, fun i => hashPad_getD_zero hfield m 1, drop_hashPad hfield m, ?_⟩
  · simp [hashPad]
  · simp [hashPad, List.getD_eq_getElem?_getD]
  · exact Nat.mod_eq_of_lt (by omega)

/-! ### Hashes: chaining (R221) -/

section
variable (f : List Word → List Byte → List Word) (h : List Word)

theorem hashWords_nil : hashWords f h [] = h := rfl

theorem hashWords_append {b : List Byte} (hb : b.length = 64) (p : List Byte) :
    hashWords f h (b ++ p) = hashWords f (f h b) p := by
  have hblocks : (b ++ p).length / 64 = p.length / 64 + 1 := by
    rw [List.length_append, hb, Nat.add_div_left _ (by decide)]
  rw [hashWords, hblocks, hashBlocks, List.take_left' hb, List.drop_left' hb, hashWords]

theorem hashWords_single {b : List Byte} (hb : b.length = 64) : hashWords f h b = f h b := by
  simpa [hashWords_nil] using hashWords_append f h hb []

/-- A message of at most 55 bytes is padded to one block. -/
theorem hashWords_hashPad_short {lenField : DWord → List Byte} (hfield : ∀ v, (lenField v).length = 8) {m : List Byte}
    (hm : m.length ≤ 55) : hashWords f h (hashPad lenField m) = f h (hashPad lenField m) := by
  have hlen : (hashPad lenField m).length = 64 := by
    rw [hashPad_length hfield]
    omega
  exact hashWords_single f h hlen
end

/-- Settles O58: a first block of 64 bytes is one compression, and a short message is one block. -/
theorem hashIsChainedCompression : Obligations.HashIsChainedCompression := by
  refine ⟨fun f h b p hb => ⟨hashWords_append f h hb p, hashWords_nil f h⟩, fun m => ⟨rfl, rfl, rfl⟩, fun m hm => ?_⟩
  have hle (f h) := hashWords_hashPad_short f h toLE64_length hm
  have hbe (f h) := hashWords_hashPad_short f h toBE64_length hm
  exact ⟨congrArg bytesLE (hle _ _), congrArg bytesBE (hbe _ _), congrArg bytesBE (hbe _ _)⟩

/-! ### Message schedules (R231, R243)

Both schedules put one new word, a function `g` of the words so far, in front of those words, which are kept last first. So the
words are never moved from their place counted from the other end. -/

/-- The words after `n` more are put in front of `ws`. -/
def extendWords (g : List Word → Word) (n : Nat) (ws : List Word) : List Word := (fun W => g W :: W)^[n] ws

section
variable (g : List Word → Word) (ws : List Word)

theorem extendWords_succ (n : Nat) : extendWords g (n + 1) ws = g (extendWords g n ws) :: extendWords g n ws :=
  Function.iterate_succ_apply' _ n ws

@[simp] theorem extendWords_length (n : Nat) : (extendWords g n ws).length = n + ws.length := by
  induction n with
  | zero => exact (Nat.zero_add _).symm
  | succ n ih => rw [extendWords_succ, List.length_cons, ih, Nat.add_right_comm]

/-- A word keeps its place in the schedule. -/
theorem reverse_extendWords_getD_of_le {n k i : Nat} (hn : n ≤ k) (hi : i < n + ws.length) :
    (extendWords g k ws).reverse.getD i 0 = (extendWords g n ws).reverse.getD i 0 := by
  induction k, hn using Nat.le_induction with
  | base => rfl
  | succ k hk ih =>
    rw [extendWords_succ, List.reverse_cons, List.getD_append _ _ _ _ (by simp; omega), ih]

/-- The first words of the schedule are those it starts from. -/
theorem reverse_extendWords_getD_initial {n i : Nat} (hi : i < ws.length) :
    (extendWords g n ws).reverse.getD i 0 = ws.reverse.getD i 0 :=
  reverse_extendWords_getD_of_le g ws n.zero_le (by omega)

/-- Word `i` is `g` of the words before it. -/
theorem reverse_extendWords_getD {n i : Nat} (hlow : ws.length ≤ i) (hhigh : i < n + ws.length) :
    (extendWords g n ws).reverse.getD i 0 = g (extendWords g (i - ws.length) ws) := by
  have hi : i = (extendWords g (i - ws.length) ws).reverse.length := by simp; omega
  rw [reverse_extendWords_getD_of_le g ws (n := i - ws.length + 1) (by omega) (by omega), extendWords_succ,
    List.reverse_cons, List.getD_append_right _ _ _ _ hi.ge, ← hi, Nat.sub_self, List.getD_cons_zero]

/-- Before word `i` is made, entry `k` of the words so far is word `i - 1 - k` of the schedule. -/
theorem extendWords_getD {n i k : Nat} (hhigh : i ≤ n + ws.length) (hk : k < ws.length) (hlow : ws.length ≤ i) :
    (extendWords g (i - ws.length) ws).getD k 0 = (extendWords g n ws).reverse.getD (i - 1 - k) 0 := by
  have hlen : (extendWords g (i - ws.length) ws).length = i := by simp; omega
  rw [reverse_extendWords_getD_of_le g ws (n := i - ws.length) (by omega) (by omega),
    List.getD_reverse _ (by omega), hlen, Nat.sub_sub_self (by omega)]
end

/-- The word that `sha1Expand` puts in front (R231). -/
def sha1NextWord (W : List Word) : Word :=
  (W.getD 2 0 ^^^ W.getD 7 0 ^^^ W.getD 13 0 ^^^ W.getD 15 0).rotateLeft 1

/-- The word that `sha256Expand` puts in front (R243). -/
def sha256NextWord (W : List Word) : Word :=
  sha256SmallSigma1 (W.getD 1 0) + W.getD 6 0 + sha256SmallSigma0 (W.getD 14 0) + W.getD 15 0

theorem wordsBE_getD (n : Nat) (b : List Byte) {i : Nat} (h : i < n) : (wordsBE n b).getD i 0 = be32 (slice b (4 * i) 4) := by
  simp [wordsBE, List.getD_eq_getElem?_getD, h]

/-- The schedule of a block: its 16 words, and `n` more by `g`. -/
def scheduleOf (g : List Word → Word) (n : Nat) (block : List Byte) : List Word :=
  (extendWords g n (wordsBE 16 block).reverse).reverse

theorem sha1Schedule_eq : sha1Schedule = scheduleOf sha1NextWord 64 :=
  funext fun _ => congrArg List.reverse (List.foldl_const _ _ _)

theorem sha256Schedule_eq : sha256Schedule = scheduleOf sha256NextWord 48 :=
  funext fun _ => congrArg List.reverse (List.foldl_const _ _ _)

section
variable (g : List Word → Word) (n : Nat) (block : List Byte)

theorem scheduleOf_length : (scheduleOf g n block).length = n + 16 := by simp [scheduleOf]

theorem scheduleOf_getD_block {j : Nat} (hj : j < 16) : (scheduleOf g n block).getD j 0 = be32 (slice block (4 * j) 4) := by
  rw [scheduleOf, reverse_extendWords_getD_initial _ _ (by simpa using hj), List.reverse_reverse, wordsBE_getD 16 block hj]

/-- Word `i` after the block's is `g` of words of which entry `k` is word `i - 1 - k`. -/
theorem scheduleOf_getD {i : Nat} (hlow : 16 ≤ i) (hhigh : i < n + 16) :
    ∃ W, (scheduleOf g n block).getD i 0 = g W ∧ ∀ k < 16, W.getD k 0 = (scheduleOf g n block).getD (i - 1 - k) 0 := by
  have hlen : (wordsBE 16 block).reverse.length = 16 := by simp
  exact ⟨_, reverse_extendWords_getD g _ (by omega) (by omega),
    fun k hk => extendWords_getD g _ (by omega) (by omega) (by omega)⟩
end

section
variable (block : List Byte) {i : Nat} (hlow : 16 ≤ i)
include hlow

/-- R231. -/
theorem sha1Schedule_getD (hhigh : i < 80) :
    (sha1Schedule block).getD i 0 =
      ((sha1Schedule block).getD (i - 3) 0 ^^^ (sha1Schedule block).getD (i - 8) 0 ^^^
        (sha1Schedule block).getD (i - 14) 0 ^^^ (sha1Schedule block).getD (i - 16) 0).rotateLeft 1 := by
  obtain ⟨W, hword, hentry⟩ := scheduleOf_getD sha1NextWord 64 block hlow hhigh
  rw [sha1Schedule_eq, hword, sha1NextWord, hentry 2 (by decide), hentry 7 (by decide), hentry 13 (by decide),
    hentry 15 (by decide)]
  rfl

/-- R243. -/
theorem sha256Schedule_getD (hhigh : i < 64) :
    (sha256Schedule block).getD i 0 =
      sha256SmallSigma1 ((sha256Schedule block).getD (i - 2) 0) + (sha256Schedule block).getD (i - 7) 0 +
        sha256SmallSigma0 ((sha256Schedule block).getD (i - 15) 0) + (sha256Schedule block).getD (i - 16) 0 := by
  obtain ⟨W, hword, hentry⟩ := scheduleOf_getD sha256NextWord 48 block hlow hhigh
  rw [sha256Schedule_eq, hword, sha256NextWord, hentry 1 (by decide), hentry 6 (by decide), hentry 14 (by decide),
    hentry 15 (by decide)]
  rfl
end

/-! ### Rounds and compressions (R224 to R227, R232 to R234, R242, R244, R245) -/

/-- R224: a run of 16 rounds uses one row of rotation amounts. -/
theorem md5S_eq {i : Nat} (h : i < 64) :
    md5S i = (if i < 16 then [7, 12, 17, 22] else if i < 32 then [5, 9, 14, 20] else if i < 48 then [4, 11, 16, 23]
      else [6, 10, 15, 21]).getD (i % 4) 0 := by
  revert i
  decide

/-- R232: the rounds from 40 to 59 use the majority, the rounds on either side of them the parity. -/
theorem sha1F_eq (i : Nat) (b c d : Word) :
    sha1F i b c d = if i < 20 then (b &&& c) ||| (~~~b &&& d)
      else if 40 ≤ i ∧ i < 60 then (b &&& c) ||| (b &&& d) ||| (c &&& d) else b ^^^ c ^^^ d := by
  rw [sha1F]
  by_cases h20 : i < 20
  · rw [if_pos h20, if_pos h20]
  · rw [if_neg h20, if_neg h20]
    by_cases h40 : i < 40
    · rw [if_pos h40, if_neg (by omega)]
    · have hmajority : 40 ≤ i ∧ i < 60 ↔ i < 60 := by omega
      simp only [if_neg h40, hmajority]

/-- R232: one constant for each 20 rounds. -/
theorem sha1K_eq {i : Nat} (h : i < 80) :
    sha1K i = [0x5a827999, 0x6ed9eba1, 0x8f1bbcdc, 0xca62c1d6].getD (i / 20) 0 := by
  revert i
  decide

/-- Settles O57: the schedules by the place of a word, the rounds by their selectors, the compressions by their definition. -/
theorem scheduleRecurrences : Obligations.ScheduleRecurrences := by
  refine ⟨fun block => ⟨sha1Schedule_eq ▸ scheduleOf_length _ _ _, sha256Schedule_eq ▸ scheduleOf_length _ _ _,
    fun j hj => ⟨sha1Schedule_eq ▸ scheduleOf_getD_block _ _ _ hj, sha256Schedule_eq ▸ scheduleOf_getD_block _ _ _ hj⟩,
    fun i hlow hhigh => sha1Schedule_getD block hlow hhigh, fun i hlow hhigh => sha256Schedule_getD block hlow hhigh⟩,
    ⟨rfl, rfl⟩, fun M v i hi => ?_, fun W v i hi => ?_, fun W v i _ => rfl, fun h block => ⟨rfl, rfl, rfl⟩⟩
  · rw [md5Round, md5S_eq hi]
    rfl
  · simp only [sha1Round, sha1F_eq, sha1K_eq hi]

/-! ### The generating formulas of the tables (R223, R240, R241, R262, R265) -/

/-- Settles O60: the tables are finite, and each entry is computed from its formula. -/
theorem tablesAreTheirGenerators : Obligations.TablesAreTheirGenerators := by
  refine ⟨⟨?primeCount, rfl, rfl, ?squareRoots, ?cubeRoots, ?rhoWalk, ?iotaLfsr⟩, rfl, ?sines⟩
  case primeCount => decide +kernel
  case squareRoots => decide +kernel
  case cubeRoots => decide +kernel
  case rhoWalk => decide +kernel
  case iotaLfsr => decide +kernel
  case sines => decide +kernel

end Sys2Proof.Machine

namespace Sys2Proof.Machine

/-! ### Keccak and SHA3-256: the commands (R273, R274) -/

/-- No check of `KECCAK.F1600` fails. -/
theorem operandsKeccakF1600_legal {s : State} (hlen : s.len = 200) (hsrc : s.inMem s.src 200) (hdst : s.inMem s.dst 200) :
    (operandsKeccakF1600 0 s).firstError s.memSize = none := by
  have hranges : (operandsKeccakF1600 0 s).ranges = [⟨s.src.toNat, 200⟩, ⟨s.dst.toNat, 200⟩] := rfl
  rw [Operands.firstError_eq_none_iff, hranges]
  refine ⟨rfl, rfl, by simp [operandsKeccakF1600, hlen], ?_⟩
  simp only [List.forall_mem_cons, Range.inside_iff]
  exact ⟨hsrc, hdst, by simp⟩

/-- Settles O36: no check fails, and the 200 bytes read are those at `SRC`. -/
theorem keccakF1600Completes : Obligations.KeccakF1600Completes := fun _ hlen hsrc hdst =>
  exec_completed (i := .keccakF1600 0) (by simp) (operandsKeccakF1600_legal hlen hsrc hdst) rfl

/-- Settles O37: no check fails, and the message read is that at `SRC`. -/
theorem sha3HashCompletes : Obligations.Sha3HashCompletes := fun _ hsrc hdst =>
  exec_completed (i := .sha3Hash 0) (by simp) (operandsHash_legal hsrc hdst) rfl

/-! ### Keccak: the step mappings by lane (R260 to R267) -/

section
variable {x y : Nat} (hx : x < 5) (hy : y < 5)
include hx hy

theorem lanes_getD (f : Nat → Nat → DWord) : (lanes f).getD (x + 5 * y) 0 = f x y := by
  have hi : x + 5 * y < 25 := by omega
  have hcol : (x + 5 * y) % 5 = x := by omega
  have hrow : (x + 5 * y) / 5 = y := by omega
  simp [lanes, List.getD_eq_getElem?_getD, hi, hcol, hrow]

theorem lane_eq_getD (A : List DWord) : lane A x y = A.getD (x + 5 * y) 0 := by
  rw [lane, Nat.mod_eq_of_lt hx, Nat.mod_eq_of_lt hy]

theorem keccakTheta_getD (A : List DWord) : (keccakTheta A).getD (x + 5 * y) 0 = lane A x y ^^^ thetaD A x := by
  rw [keccakTheta, lanes_getD hx hy]
  simp [List.getD_eq_getElem?_getD, hx]

/-- ι changes lane (0, 0) alone. -/
theorem keccakIota_getD {A : List DWord} (hA : A.length = 25) (ir : Nat) :
    (keccakIota A ir).getD (x + 5 * y) 0 = lane A x y ^^^ (if x = 0 ∧ y = 0 then keccakRC.getD ir 0 else 0) := by
  by_cases hzero : x = 0 ∧ y = 0
  · obtain ⟨rfl, rfl⟩ := hzero
    simp [keccakIota, List.getD_eq_getElem?_getD, hA]
  · have hne : 0 ≠ x + 5 * y := by omega
    simp [keccakIota, List.getD_eq_getElem?_getD, hzero, hne, lane_eq_getD hx hy]
end

theorem lanesOfBytes_getD (st : List Byte) {i : Nat} (h : i < 25) :
    (lanesOfBytes st).getD i 0 = le64 (slice st (8 * i) 8) := by
  simp [lanesOfBytes, List.getD_eq_getElem?_getD, h]

theorem slice_bytesOfLanes {A : List DWord} {i : Nat} (h : i < A.length) :
    slice (bytesOfLanes A) (8 * i) 8 = toLE64 (A.getD i 0) := by
  have hpieces : ∀ b ∈ A.map toLE64, b.length = 8 := List.forall_mem_map.2 fun _ _ => rfl
  rw [bytesOfLanes, List.flatMap_def, slice_flatten hpieces (by simpa using h)]
  simp [List.getD_eq_getElem?_getD, h]

/-- Settles O59: each mapping by the lane it sets; a state of 25 lanes is its 200 bytes, 8 for each lane. -/
theorem keccakStepsByLane : Obligations.KeccakStepsByLane := by
  refine ⟨fun A ir x y hA hx hy => ?_, fun A ir => ⟨rfl, rfl⟩, fun st x y hx hy => ?_⟩
  · exact ⟨keccakTheta_getD hx hy A, lanes_getD hx hy _, lanes_getD hx hy _, lanes_getD hx hy _, keccakIota_getD hx hy hA ir⟩
  · have hi : x + 5 * y < 25 := by omega
    have hlen : (keccakF (lanesOfBytes st)).length = 25 := keccakF_length (by simp [lanesOfBytes])
    exact ⟨lanesOfBytes_getD st hi, slice_bytesOfLanes (hlen.symm ▸ hi)⟩

/-! ### SHA3-256: padding (R268)

The two cases of the padding are one sequence: 0x06 XORed into its first byte and 0x80 into its last. -/

/-- Byte `j` of a padding of `q` bytes. -/
def sha3PadByte (q j : Nat) : Byte := (if j = 0 then 0x06 else 0) ^^^ (if j + 1 = q then 0x80 else 0)

/-- The `q` bytes that fill the last block. -/
def sha3Padding (q : Nat) : List Byte := (List.range q).map (sha3PadByte q)

@[simp] theorem sha3Padding_length (q : Nat) : (sha3Padding q).length = q := by simp [sha3Padding]

theorem sha3Padding_getD {q j : Nat} (h : j < q) : (sha3Padding q).getD j 0 = sha3PadByte q j := by
  simp [sha3Padding, List.getD_eq_getElem?_getD, h]

/-- A padding of two bytes or more is 0x06, zeros and 0x80. -/
theorem sha3Padding_add_two (k : Nat) : sha3Padding (k + 2) = [0x06] ++ List.replicate k 0 ++ [0x80] := by
  have hfirst : sha3PadByte (k + 2) 0 = 0x06 := by simp [sha3PadByte]
  have hmiddle : ∀ j ∈ List.range k, (sha3PadByte (k + 2) ∘ Nat.succ) j = 0 := fun j hj => by
    have hne : j ≠ k := Nat.ne_of_lt (List.mem_range.1 hj)
    simp [sha3PadByte, hne]
  have hlast : sha3PadByte (k + 2) (k + 1) = 0x80 := by simp [sha3PadByte]
  rw [sha3Padding, List.range_succ, List.map_append, List.map_singleton, hlast, List.range_succ_eq_map, List.map_cons,
    hfirst, List.map_map, List.map_congr_left hmiddle, List.map_const', List.length_range, List.singleton_append]

theorem sha3Pad_eq_append (m : List Byte) : sha3Pad m = m ++ sha3Padding (136 - m.length % 136) := by
  rw [sha3Pad, sha3Rate]
  by_cases hone : 136 - m.length % 136 = 1
  · simp only [hone]
    rfl
  · obtain ⟨k, hk⟩ : ∃ k, 136 - m.length % 136 = k + 2 := ⟨136 - m.length % 136 - 2, by omega⟩
    simp [hk, sha3Padding_add_two]

theorem sha3Pad_length (m : List Byte) : (sha3Pad m).length = 136 * (m.length / 136 + 1) := by
  rw [sha3Pad_eq_append, List.length_append, sha3Padding_length]
  omega

theorem take_sha3Pad (m : List Byte) : (sha3Pad m).take m.length = m := by
  rw [sha3Pad_eq_append, List.take_left]

theorem sha3Pad_getD (m : List Byte) {i : Nat} (hlow : m.length ≤ i) (hhigh : i < (sha3Pad m).length) :
    (sha3Pad m).getD i 0 =
      (if i = m.length then 0x06 else 0) ^^^ (if i + 1 = (sha3Pad m).length then 0x80 else 0) := by
  have hlen : (sha3Pad m).length = m.length + (136 - m.length % 136) := by simp [sha3Pad_eq_append]
  have hbyte : (sha3Pad m).getD i 0 = sha3PadByte (136 - m.length % 136) (i - m.length) := by
    rw [sha3Pad_eq_append, List.getD_append_right _ _ _ _ hlow, sha3Padding_getD (by omega)]
  have hfirst : i - m.length = 0 ↔ i = m.length := by omega
  have hlast : i - m.length + 1 = 136 - m.length % 136 ↔ i + 1 = (sha3Pad m).length := by omega
  simp only [hbyte, sha3PadByte, hfirst, hlast]

/-! ### SHA3-256: absorbing (R269 to R272) -/

/-- The rate portion is XORed with the block, the capacity bytes stay (R269). -/
theorem sha3XorBlock_eq_append {st b : List Byte} (hst : st.length = 200) (hb : b.length = 136) :
    sha3XorBlock st b = xorBytes (st.take 136) b ++ st.drop 136 := by
  have hrate : (xorBytes (st.take 136) b).length = 136 := by simp [xorBytes, hst, hb]
  refine eq_of_getD_eq (n := 200) (by simp [sha3XorBlock]) (by simp [hrate, hst]) fun t ht => ?_
  have hentry : (sha3XorBlock st b).getD t 0 = if t < 136 then st.getD t 0 ^^^ b.getD t 0 else st.getD t 0 := by
    simp [sha3XorBlock, sha3Rate, List.getD_eq_getElem?_getD, ht]
  rw [hentry]
  split
  next hlt =>
    rw [List.getD_append _ _ _ _ (hrate.symm ▸ hlt), xorBytes_getD _ _ (by simp; omega) (by omega)]
    simp [List.getD_eq_getElem?_getD, hlt]
  next hge =>
    rw [List.getD_append_right _ _ _ _ (by omega), hrate]
    simp [List.getD_eq_getElem?_getD, Nat.add_sub_cancel' (Nat.le_of_not_lt hge)]

theorem sha3AbsorbBlocks_append (n : Nat) {st b : List Byte} (hst : st.length = 200) (hb : b.length = 136)
    (p : List Byte) : sha3AbsorbBlocks (n + 1) st (b ++ p) =
      sha3AbsorbBlocks n (keccakFBytes (xorBytes (st.take 136) b ++ st.drop 136)) p := by
  rw [sha3AbsorbBlocks, sha3Rate, List.take_left' hb, List.drop_left' hb, sha3XorBlock_eq_append hst hb]

theorem xorBytes_zeros_left {n : Nat} {b : List Byte} (hb : b.length = n) : xorBytes (List.replicate n 0) b = b := by
  refine eq_of_getD_eq (n := n) (by simp [xorBytes, hb]) hb fun i hi => ?_
  rw [xorBytes_getD _ _ (by simpa using hi) (by omega), List.getD_replicate _ hi]
  exact BitVec.zero_xor

/-- A padded message of one block is permuted once. -/
theorem sha3_of_length_le {m : List Byte} (hm : m.length ≤ 135) :
    sha3 m = (keccakFBytes (sha3Pad m ++ List.replicate 64 0)).take 32 := by
  have hlen : (sha3Pad m).length = 136 := by
    rw [sha3Pad_length]
    omega
  have habsorb := sha3AbsorbBlocks_append 0 (List.length_replicate (n := 200) (a := (0 : Byte))) hlen []
  rw [List.append_nil, sha3AbsorbBlocks, List.take_replicate, Nat.min_eq_left (by decide),
    List.drop_replicate, xorBytes_zeros_left hlen] at habsorb
  rw [sha3, sha3Absorb, hlen]
  exact congrArg (List.take 32) habsorb

/-- Settles O56: the message and its padding by position, and one block absorbed at a time. -/
theorem sha3PaddingAndSingleBlock : Obligations.Sha3PaddingAndSingleBlock :=
  ⟨fun m => ⟨sha3Pad_length m, take_sha3Pad m, fun _ => sha3Pad_getD m, sha3_of_length_le⟩, fun _ => rfl,
    fun n _ _ p hst hb => ⟨rfl, sha3AbsorbBlocks_append n hst hb p⟩⟩

end Sys2Proof.Machine

namespace Sys2Proof.Machine

/-! ### `NOP`, `CLRSTAT` and the `STICKY` bit (R280, R281) -/

theorem wellFormed_eq_false_of_param_ne_zero {i : Instr} (hset : i.legalParams = [0]) (hp : i.param ≠ 0) :
    i.wellFormed = false := by
  simpa [Instr.wellFormed, hset] using hp

theorem exec_nop_zero (s : State) : exec (.nop 0) s = .next s.succeed := rfl

theorem exec_clrstat_zero (s : State) : exec (.clrstat 0) s = .next s.clearStatus := rfl

/-- Settles O20: `PARAM` 0 passes the one check of `NOP`, and no other does. -/
theorem nopCompletes : Obligations.NopCompletes :=
  ⟨decode_encode (.nop 0), fun s => ⟨exec_nop_zero s, fun _ hp =>
    exec_of_not_wellFormed s (wellFormed_eq_false_of_param_ne_zero rfl hp)⟩⟩

/-- A word that clears `STICKY` is the word of `CLRSTAT` with `PARAM` 0. -/
theorem eq_one_of_issue_clears_sticky {w : Word} {s t : State} (h : issue w s = .next t)
    (hset : s.status.getLsbD 8 = true) (hclear : t.status.getLsbD 8 = false) : w = 1 := by
  cases hw : decode w with
  | ok i =>
    by_cases hi : i = .clrstat 0
    · exact (encode_of_decode (hi ▸ hw)).symm
    · obtain ⟨u, hexec, hdone, -⟩ := statusFieldsOfACommand i s
      rw [issue_of_ok hw, hexec] at h
      cases h
      obtain ⟨-, hkept⟩ := hdone hi
      exact absurd (hkept hset) (ne_true_of_eq_false hclear)
  | error r =>
    rw [issue_of_error hw] at h
    cases h
    exact absurd (statusOnError_sticky .illegalCommand) (ne_true_of_eq_false hclear)

/-- Settles O21: every other command sets `DONE` and keeps `STICKY`, and of the events only a write of `CMD` and a reset change
`STATUS` at all. -/
theorem clrstatCompletes : Obligations.ClrstatCompletes := by
  refine ⟨decode_encode (.clrstat 0), fun s =>
    ⟨exec_clrstat_zero s, fun p hp => ?_, fun i hi => ?_, fun t ht hset hclear => ?_⟩⟩
  · exact exec_of_not_wellFormed s (wellFormed_eq_false_of_param_ne_zero rfl hp)
  · obtain ⟨t, hexec, hdone, -⟩ := statusFieldsOfACommand i s
    exact ⟨t, hexec, hdone hi⟩
  · obtain ⟨hevent, -⟩ := eachStateChangesOnlyByItsOwnTransaction s t ht
    have hchanged : t.status ≠ s.status := fun heq => ne_true_of_eq_false hclear (heq ▸ hset)
    refine (hevent hchanged).imp_left fun ⟨w, rest, hhost⟩ => ⟨rest, ?_⟩
    rw [step_cmdWrite hhost] at ht
    rw [hhost, eq_one_of_issue_clears_sticky ht hset hclear]

/-! ### The checks of R305 against the table of R88

The machine's checks and the table are compared column by column; then `firstError` and `tableError` are one chain of tests. -/

theorem streamKeyLen_eq_contains (n : Word) : streamKeyLen n = [16, 32].contains n.toNat := by
  simp [streamKeyLen, Bool.beq_eq_decide_eq]

theorem rc4KeyLen_eq_contains (n : Word) : rc4KeyLen n = (List.range' 1 256).contains n.toNat := by
  rw [List.contains_eq_mem, rc4KeyLen, ← Bool.decide_and, decide_eq_decide, List.mem_range'_1]
  omega

theorem presentKeyLen_eq_contains (p : Param) (k : Nat) :
    (k == presentKeyLen p) = (if p = 0 then [10] else [16]).contains k := by
  unfold presentKeyLen
  simp only [beq_iff_eq]
  split <;> simp [Bool.beq_eq_decide_eq]

/-- The check of `KEYLEN` is the `KEYLEN` column of R88. -/
theorem operandsOf_legalKeyLen (i : Instr) (s : State) :
    (operandsOf s i).legalKeyLen = (s.row i).keyLens.all (·.contains s.keylen.toNat) := by
  have single (n : Nat) : (s.keylen.toNat == n) = [n].contains s.keylen.toNat := by
    simp [Bool.beq_eq_decide_eq]
  cases i
  case aes128Keyexp | aesRnd | aesRndlast | aes128Enc | triviumXor => exact single _
  case presentKeysched p | presentEnc p | presentDec p => exact presentKeyLen_eq_contains p _
  case chacha20Block | chacha20Xor | salsa20Block | salsa20Xor => exact streamKeyLen_eq_contains _
  case rc4Ksa | rc4Xor => exact rc4KeyLen_eq_contains _
  all_goals rfl

/-- The check of `LEN` is the `LEN` column of R88. -/
theorem operandsOf_legalLen (i : Instr) (s : State) :
    (operandsOf s i).legalLen = (s.row i).len.all (s.len.toNat == ·) := by
  cases i <;> rfl

/-- The ranges that a command is checked against are the `reads` and `writes` columns of R88. -/
theorem row_reads_append_writes_eq_ranges (i : Instr) (s : State) :
    ((s.row i).reads ++ (s.row i).writes).map s.entryRange = (operandsOf s i).ranges := by
  cases i <;> rfl

/-- A range is out of range when it is not empty and ends above `MEM_SIZE` (R62). -/
theorem not_inside_entryRange (s : State) (pn : Reg × Nat) :
    (!(s.entryRange pn).inside s.memSize) = decide (0 < pn.2 ∧ s.memSize < (s.readReg pn.1).toNat + pn.2) := by
  rw [Bool.eq_iff_iff, Bool.not_eq_true', ← Bool.not_eq_true, Range.inside_iff, decide_eq_true_iff]
  simp only [State.entryRange]
  omega

theorem not_all_ranges_inside (i : Instr) (s : State) :
    (!(operandsOf s i).ranges.all fun r => r.inside s.memSize) =
      ((s.row i).reads ++ (s.row i).writes).any fun pn => 0 < pn.2 ∧ s.memSize < (s.readReg pn.1).toNat + pn.2 := by
  rw [← row_reads_append_writes_eq_ranges, List.all_map, List.not_all_eq_any_not]
  exact congrArg _ (funext (not_inside_entryRange s))

theorem option_not_all_eq_any_not {α : Type} (o : Option α) (p : α → Bool) : (!o.all p) = o.any fun a => !p a := by
  cases o <;> rfl

/-- The checks that the machine runs are those of the table. -/
theorem firstError_eq_tableError (i : Instr) (s : State) : (operandsOf s i).firstError s.memSize = tableError i s := by
  rw [Operands.firstError, operandsOf_legalParam, Instr.wellFormed, operandsOf_legalKeyLen, operandsOf_legalLen,
    option_not_all_eq_any_not, option_not_all_eq_any_not, not_all_ranges_inside]
  simp [tableError, Bool.beq_eq_decide_eq]

theorem errorStatus_eq_statusOnError (e : ErrorCode) : errorStatus e = statusOnError e := by
  cases e <;> rfl

/-! ### The first failing check of a command word -/

section
variable {w : Word} {s : State}

/-- The first test of `wordError` singles out the words that do not decode (R85). -/
theorem illegal_iff_not_exists_decode_eq_ok :
    (w.extractLsb' 12 20 ≠ 0 ∨ w.extractLsb' 0 8 ∉ assignedOps) ↔ ¬∃ i, decode w = .ok i := by
  rw [exists_decode_eq_ok_iff, not_and_or]
  rfl

theorem wordError_of_decode_ok {i : Instr} (h : decode w = .ok i) : wordError w s = (operandsOf s i).firstError s.memSize := by
  have hlegal := mt illegal_iff_not_exists_decode_eq_ok.1 (not_not_intro ⟨i, h⟩)
  rw [wordError, if_neg hlegal, h, firstError_eq_tableError]

theorem wordError_of_decode_error {r : DecodeReject} (h : decode w = .error r) : wordError w s = some .illegalCommand :=
  if_pos (illegal_iff_not_exists_decode_eq_ok.2 (by simp [h]))

/-- Taking an event changes nothing that a check reads. -/
theorem wordError_takeEvent (rest : List HostEvent) : wordError w (s.takeEvent rest) = wordError w s := rfl

theorem issue_of_wordError {e : ErrorCode} (h : wordError w s = some e) : issue w s = .next (s.raise e) := by
  cases hw : decode w with
  | ok i =>
    rw [wordError_of_decode_ok hw] at h
    rw [issue_of_ok hw, exec_eq_checked, checked_of_error h]
  | error r =>
    rw [wordError_of_decode_error hw] at h
    cases h
    exact issue_of_error hw

theorem issue_of_wordError_eq_none (h : wordError w s = none) :
    ∃ t, issue w s = .next t ∧
      t.status = if decode w = .ok (.clrstat 0) then 0 else statusOnSuccess s.status := by
  cases hw : decode w with
  | ok i =>
    rw [wordError_of_decode_ok hw] at h
    refine ⟨stateAfter i s, by rw [issue_of_ok hw, exec_eq_checked, checked_of_legal h], ?_⟩
    by_cases hi : i = .clrstat 0
    · subst hi
      rfl
    · rw [stateAfter_status, statusAfter_of_legal h hi, if_neg (by simpa using hi)]
  | error r =>
    rw [wordError_of_decode_error hw] at h
    cases h

end

/-- Settles O16: the table and the machine's checks name the same first error, which `raise` enters in `STATUS` and nowhere
else. -/
theorem firstFailingCheckDecidesTheError : Obligations.FirstFailingCheckDecidesTheError := by
  intro s w rest hhost
  rw [step_cmdWrite hhost, ← wordError_takeEvent rest]
  refine ⟨fun e he => ?_, issue_of_wordError_eq_none⟩
  rw [issue_of_wordError he, errorStatus_eq_statusOnError]
  rfl

/-! ### Reset (R340, R341) -/

theorem Memory.insert_eq_append {m : Memory} {a : Nat} (b : Byte) (h : ∀ c ∈ m, c.1 < a) :
    m.insert a b = m ++ [(a, b)] := by
  induction m with
  | nil => rfl
  | cons c m ih =>
    obtain ⟨hc, hm⟩ := List.forall_mem_cons.1 h
    rw [Memory.insert, if_neg hc.not_gt, ih hm, List.cons_append]

/-- A byte stored above all listed addresses is listed last. -/
theorem Memory.write_eq_append {m : Memory} {a : Nat} {b : Byte} (h : ∀ c ∈ m, c.1 < a) (hb : b ≠ Config.unlistedByte) :
    m.write a b = m ++ [(a, b)] := by
  have herase : m.erase a = m := List.filter_eq_self.2 fun c hc => bne_iff_ne.2 (h c hc).ne
  rw [Memory.write, if_neg hb, herase, Memory.insert_eq_append b h]

theorem Memory.ofCells_concat {size : Nat} (cells : List Host.Cell) {c : Host.Cell} (h : c.1 < size) :
    Memory.ofCells size (cells ++ [c]) = (Memory.ofCells size cells).write c.1 c.2 := by
  simp [Memory.ofCells, List.foldl_append, h]

/-- Content in canonical form and inside `MEM` is brought in as it stands: each cell lies above those before it. -/
theorem Memory.ofCells_eq_self {size : Nat} {m : Memory} (hwf : m.wf) (hin : ∀ c ∈ m, c.1 < size) :
    Memory.ofCells size m = m := by
  induction m using List.reverseRecOn with
  | nil => rfl
  | append_singleton m c ih =>
    obtain ⟨hsorted, hlisted⟩ := hwf
    obtain ⟨hm, -, habove⟩ := List.pairwise_append.1 hsorted
    obtain ⟨hlisted, hclisted⟩ := List.forall_mem_append.1 hlisted
    obtain ⟨hin, hcin⟩ := List.forall_mem_append.1 hin
    have hc : c ∈ [c] := List.mem_cons_self
    rw [Memory.ofCells_concat m (hcin c hc), ih ⟨hm, hlisted⟩ hin]
    exact Memory.write_eq_append (fun d hd => habove d hd c hc) (hclisted c hc)

/-- Settles O11: reset is `launch`, and the content it brings is already what `ofCells` makes of it. -/
theorem resetActionClearsRegisters : Obligations.ResetActionClearsRegisters := fun _ _ _ hhost =>
  ⟨_, step_of_host hhost, rfl, rfl, rfl, rfl, rfl, rfl, rfl, rfl, rfl, rfl, rfl, Memory.ofCells_eq_self⟩

end Sys2Proof.Machine
